-- ==== Sys2Proof/Config.lean ====
section
/-! DEFINITION. The parameters of the block (00_scope.md R7), the example configuration of the
spec's vectors, and the free values: the answers of the Transfer Channel. -/

namespace Sys2Proof

/-- The byte orders `BE` and `LE` of R10. -/
inductive ByteOrder
  | be
  | le
deriving DecidableEq, Repr, Inhabited

/-- What the Transfer Channel answers to one primitive (R11, R48, R49): `fail`, or completion with
the bytes it returns. A `MemWrite` ignores the bytes. -/
inductive Answer
  | fail
  | done (bytes : List Byte)
deriving DecidableEq, Repr, Inhabited

/-- The selector `UserData` (30_encoding.md R86). -/
def selUserData : Byte := 0x11

/-- The parameters of R7. The fields without a default are the OPEN ones (D18, D22 to D24); the
others carry the value R7 gives. `P_CAP` is an operand of LINK_INIT. Log entry 1. -/
structure Config where
  /-- `P_HS_WIDTH` -/
  hsWidth : Nat
  /-- `P_O_BUSY`, `P_O_TX`, `P_O_RX` -/
  oBusy : Word16
  oTx : Word16
  oRx : Word16
  /-- `P_V_BUSY_CLEAR` -/
  vBusyClear : List Byte
  /-- `P_V_TX_READY`, `P_V_TX_CONSUMED`, `P_V_TX_CLEAR` -/
  vTxReady : List Byte
  vTxConsumed : List Byte
  vTxClear : List Byte
  /-- `P_V_RX_READY`, `P_V_RX_CONSUMED`, `P_V_RX_IDLE`, `P_V_RX_CLEAR` -/
  vRxReady : List Byte
  vRxConsumed : List Byte
  vRxIdle : List Byte
  vRxClear : List Byte
  /-- `P_LEN_WIDTH`, `P_LEN_ORDER` -/
  lenWidth : Nat
  lenOrder : ByteOrder
  /-- `P_REG_ORDER` -/
  regOrder : ByteOrder
  /-- `P_ST_OPEN_BIT`, `P_ST_WR_BIT`, `P_ST_RD_BIT`, `P_ST_SEL_LSB`, `P_ST_SEL_WIDTH` -/
  stOpenBit : Nat
  stWrBit : Nat
  stRdBit : Nat
  stSelLsb : Nat
  stSelWidth : Nat
  /-- `P_OP_OPEN`, `P_OP_CLOSE`, `P_OP_READ`, `P_OP_WRITE`, `P_OP_DELETE` -/
  opOpen : Word16
  opClose : Word16
  opRead : Word16
  opWrite : Word16
  opDelete : Word16
  /-- `P_STATUS_SUCCESS` -/
  statusSuccess : Word16 := 0x0000
  /-- `P_RX_CRC_ENFORCE` -/
  rxCrcEnforce : Bool := false
  /-- `P_POLL_LIMIT` -/
  pollLimit : Option Nat := none
  /-- `P_PENDING_LIMIT` -/
  pendingLimit : Option Nat := none
  /-- `P_RX_POLL_DELAY_MS` -/
  rxPollDelay : Nat := 50
  /-- `P_NUM_HANDLES` -/
  numHandles : Nat := 4
  /-- `P_READ_ACK_HDR` -/
  readAckHdr : Nat := 0
  /-- `KNOWN_SELECTORS` -/
  knownSelectors : List Byte := [selUserData]
deriving DecidableEq, Repr

/-- The non-normative example configuration EX of 95_test_vectors.md section 0 (D42), with the
defaults of R7. DESIGN CHOICE: it is the configuration `State.reset` names (log entry 1, unsafe). -/
def Config.ex : Config where
  hsWidth := 1
  oBusy := 0
  oTx := 1
  oRx := 2
  vBusyClear := [0x00]
  vTxReady := [0x01]
  vTxConsumed := [0x02]
  vTxClear := [0x00]
  vRxReady := [0x01]
  vRxConsumed := [0x02]
  vRxIdle := [0x00]
  vRxClear := [0x00]
  lenWidth := 4
  lenOrder := .le
  regOrder := .le
  stOpenBit := 0
  stWrBit := 1
  stRdBit := 2
  stSelLsb := 32
  stSelWidth := 32
  opOpen := 0
  opClose := 1
  opRead := 2
  opWrite := 3
  opDelete := 4

/-- The free values: the answer the Transfer Channel gives to a primitive for which the input list
`State.answers` holds none, indexed by a counter of the state. Nothing constrains it (R3, R49,
93 section 1: `any value`). DESIGN CHOICE, log entry 3, safe. -/
opaque Config.deviceAnswer : Nat → Answer

end Sys2Proof
end

