-- ==== Sys2Proof/Machine/Crc.lean ====
section
/-! DEFINITION. The CRC-32 checker's algorithm, CRC-32/JAMCRC (40_crc.md R100 to R102). -/

namespace Sys2Proof

/-- `0xEDB88320`, the reflected generator polynomial (R100). -/
def crcPoly : Word32 := 0xEDB88320

/-- `0xFFFFFFFF`, the initial register value (R100). -/
def crcInit : Word32 := 0xFFFFFFFF

/-- One pass of R101's inner loop: a logical right shift, and the polynomial if bit 0 was 1. -/
def crcBit (acc : Word32) : Word32 :=
  if acc.getLsbD 0 then (acc >>> 1) ^^^ crcPoly else acc >>> 1

/-- `crcBit` repeated `n` times. -/
def crcBits : Nat → Word32 → Word32
  | 0, acc => acc
  | n + 1, acc => crcBits n (crcBit acc)

/-- One pass of R101's outer loop: the byte is XORed in, then 8 bit passes. -/
def crcByte (acc : Word32) (b : Byte) : Word32 := crcBits 8 (acc ^^^ b.setWidth 32)

/-- `crc32jam(B)` (R101, R102): no final inversion. -/
def crc32jam (bytes : List Byte) : Word32 := bytes.foldl crcByte crcInit

end Sys2Proof
end

