-- ==== Sys2Proof/Syntax.lean ====
section
/-! DEFINITION. The instructions: one constructor per row of spec/opcode_table.json. Each carries
the operands its encoding carries; fields the block ignores (30_encoding.md R87) are no operands. -/

namespace Sys2Proof

/-- The fields of a received wire packet other than its commandId and its length (30_encoding.md
R67 to R69). `length` is `payload.length`. `preamble` is the integer whose little-endian bytes
stand at offsets 0 and 1. -/
structure Ack where
  preamble : Word16
  crc : Word32
  channelId : Word16
  status : Word16
  requestId : Word16
  payload : List Byte
deriving DecidableEq, Repr

/-- The 23 rows of the opcode table. -/
inductive Instr
  /-- host opcode 0x01 (R88, R140): the four 16-bit fields of `addr` -/
  | linkInit (cap hs buf lenreg : Word16)
  /-- host opcode 0x02 (R146) -/
  | writeReg (addr : Word64) (data : List Byte)
  /-- host opcode 0x03 (R151) -/
  | readReg (addr : Word64) (len : Word32)
  /-- host opcode 0x04 (R106) -/
  | crcCompute (data : List Byte)
  /-- host opcode 0x10 (R164) -/
  | fileOpen (sel mode : Byte)
  /-- host opcode 0x11 (R165) -/
  | fileRemove (sel : Byte)
  /-- host opcode 0x12 (R166) -/
  | fileLength (h : Byte)
  /-- host opcode 0x13 (R167) -/
  | fileWrite (h : Byte) (data : List Byte)
  /-- host opcode 0x14 (R168) -/
  | fileRead (h : Byte) (maxLen : Word32)
  /-- host opcode 0x15 (R169) -/
  | handleDup (h : Byte)
  /-- host opcode 0x16 (R170) -/
  | handleDrop (h : Byte)
  /-- any other host opcode (R90) -/
  | illegalHostOpcode (op : Byte)
  /-- commandId 0x0800, block to device (R74, R111) -/
  | readMemRequest (addr : Word64) (n : Word16)
  /-- commandId 0x0801, device to block (R75, R116) -/
  | readMemAck (a : Ack)
  /-- commandId 0x0802, block to device (R76, R112) -/
  | writeMemRequest (addr : Word64) (data : List Byte)
  /-- commandId 0x0803, device to block (R77, R114) -/
  | writeMemAck (a : Ack)
  /-- commandId 0x0805, device to block (R78, R115) -/
  | pendingAck (a : Ack)
  /-- a received packet whose commandId is no acknowledgment's (R73; log entry 10) -/
  | undefinedCommandId (cmd : Word16) (a : Ack)
  /-- OperationExecute values (R82, R83): the mode field, bits 31:16, and the selector field,
  bits 63:32 -/
  | opOpen (mode : Word16) (sel : Word32)
  | opClose (mode : Word16) (sel : Word32)
  | opRead (mode : Word16) (sel : Word32)
  | opWrite (mode : Word16) (sel : Word32)
  | opDelete (mode : Word16) (sel : Word32)
deriving DecidableEq, Repr

/-- The four encoded interfaces (30_encoding.md, opening): the host command frame, a wire packet
from the block to the device, a wire packet from the device to the block, an OperationExecute
value. -/
inductive Port
  | host
  | request
  | received
  | operation
deriving DecidableEq, Repr

/-- The interface an instruction is encoded on. -/
def Instr.port : Instr → Port
  | .linkInit .. | .writeReg .. | .readReg .. | .crcCompute .. | .fileOpen .. | .fileRemove ..
  | .fileLength .. | .fileWrite .. | .fileRead .. | .handleDup .. | .handleDrop ..
  | .illegalHostOpcode .. => .host
  | .readMemRequest .. | .writeMemRequest .. => .request
  | .readMemAck .. | .writeMemAck .. | .pendingAck .. | .undefinedCommandId .. => .received
  | .opOpen .. | .opClose .. | .opRead .. | .opWrite .. | .opDelete .. => .operation

end Sys2Proof
end

