-- ==== Sys2Proof/WellFormed.lean ====
section
/-! DEFINITION. Which instructions have an encoding: the bounds of the fields (30_encoding.md). -/

namespace Sys2Proof

/-- `data` fits the 32-bit `len` of the host frame (R87, R152). -/
def hostDataFits (data : List Byte) : Bool := data.length < 2 ^ 32

/-- The opcodes of R88. -/
def hostOpcodes : List Byte :=
  [0x01, 0x02, 0x03, 0x04, 0x10, 0x11, 0x12, 0x13, 0x14, 0x15, 0x16]

/-- The commandIds of the acknowledgments (R73). -/
def ackCommandIds : List Word16 := [0x0801, 0x0803, 0x0805]

/-- The payload fits the 16-bit `length` of the ControlDescriptor (R69). -/
def ackFits (a : Ack) : Bool := a.payload.length < 2 ^ 16

/-- R74: a requested length of 1 to `MRP`, at most `1024 - 16` (R23). -/
def readRequestFits (n : Word16) : Bool := 1 ≤ n.toNat && n.toNat ≤ 1008

/-- R76: 1 to `MWP` data bytes, at most `1024 - 24` (R23). -/
def writeRequestFits (data : List Byte) : Bool := 1 ≤ data.length && data.length ≤ 1000

/-- The instructions that have an encoding. -/
def Instr.wf : Instr → Bool
  | .linkInit .. | .readReg .. | .fileOpen .. | .fileRemove .. | .fileLength .. | .fileRead ..
  | .handleDup .. | .handleDrop .. => true
  | .writeReg _ data | .crcCompute data | .fileWrite _ data => hostDataFits data
  | .illegalHostOpcode op => !hostOpcodes.contains op
  | .readMemRequest _ n => readRequestFits n
  | .writeMemRequest _ data => writeRequestFits data
  | .readMemAck a | .writeMemAck a | .pendingAck a => ackFits a
  | .undefinedCommandId cmd a => !ackCommandIds.contains cmd && ackFits a
  | .opOpen .. | .opClose .. | .opRead .. | .opWrite .. | .opDelete .. => true

end Sys2Proof
end

