-- ==== Sys2Proof/Decode.lean ====
section
/-! DEFINITION. Byte strings (00_scope.md R10), the wire packet (30_encoding.md section 1), the
decoders of the four encoded interfaces, total on any bytes, and after them the encoder. -/

namespace Sys2Proof

/-! ### Byte strings and byte order (R10) -/

/-- The `n`-byte little-endian encoding of `v mod 2^(8n)`. -/
def leBytes : Nat → Nat → List Byte
  | 0, _ => []
  | n + 1, v => BitVec.ofNat 8 v :: leBytes n (v / 256)

/-- The integer a little-endian byte string encodes. -/
def leValue : List Byte → Nat
  | [] => 0
  | b :: bs => b.toNat + 256 * leValue bs

/-- `enc(order, n, v)`. -/
def enc (order : ByteOrder) (n v : Nat) : List Byte :=
  match order with
  | .le => leBytes n v
  | .be => (leBytes n v).reverse

/-- `dec(order, B)`. -/
def dec (order : ByteOrder) (bytes : List Byte) : Nat :=
  match order with
  | .le => leValue bytes
  | .be => leValue bytes.reverse

/-- `B[a .. a + n)`. -/
def slice (bytes : List Byte) (a n : Nat) : List Byte := (bytes.drop a).take n

def be16 (v : Word16) : List Byte := enc .be 2 v.toNat
def be32 (v : Word32) : List Byte := enc .be 4 v.toNat
def be64 (v : Word64) : List Byte := enc .be 8 v.toNat

def rdbe16 (bytes : List Byte) (o : Nat) : Word16 := BitVec.ofNat 16 (dec .be (slice bytes o 2))
def rdbe32 (bytes : List Byte) (o : Nat) : Word32 := BitVec.ofNat 32 (dec .be (slice bytes o 4))
def rdbe64 (bytes : List Byte) (o : Nat) : Word64 := BitVec.ofNat 64 (dec .be (slice bytes o 8))

/-- The byte at offset `o`, 0 past the end. -/
def byteAt (bytes : List Byte) (o : Nat) : Byte := bytes.getD o 0

/-! ### The wire packet (R67 to R73) -/

def cmdReadMem : Word16 := 0x0800
def cmdReadMemAck : Word16 := 0x0801
def cmdWriteMem : Word16 := 0x0802
def cmdWriteMemAck : Word16 := 0x0803
def cmdPendingAck : Word16 := 0x0805

/-- `HDR_SIZE` (R7, R67). -/
def hdrSize : Nat := 16

/-- The preamble (R68): the integer 0x0100, sent little-endian. -/
def preambleValue : Word16 := 0x0100

/-- The channelId (R68). -/
def channelIdValue : Word16 := 0x0000

/-- The flags of a request: bit 14 set, every other bit 0 (R70). -/
def requestFlags : Word16 := 0x4000

/-- The bytes under the CRC (R103): channelId, ControlDescriptor, payload, as serialised. -/
def coveredBytes (cmd : Word16) (a : Ack) : List Byte :=
  be16 a.channelId ++ be16 a.status ++ be16 cmd ++ be16 (BitVec.ofNat 16 a.payload.length) ++
    be16 a.requestId ++ a.payload

/-- A packet on the wire (R67): preamble, crc, then the bytes under the CRC. -/
def packetBytes (cmd : Word16) (a : Ack) : List Byte :=
  enc .le 2 a.preamble.toNat ++ be32 a.crc ++ coveredBytes cmd a

/-- The fields of a received byte string, or none where its size disagrees with its header
(R81, R113). -/
def parsePacket (q : List Byte) : Option (Word16 × Ack) :=
  if q.length < hdrSize then none
  else if q.length ≠ hdrSize + (rdbe16 q 12).toNat then none
  else some (rdbe16 q 10,
    { preamble := BitVec.ofNat 16 (dec .le (slice q 0 2))
      crc := rdbe32 q 2
      channelId := rdbe16 q 6
      status := rdbe16 q 8
      requestId := rdbe16 q 14
      payload := q.drop hdrSize })

/-- ENCODE (41_framer.md R110): the request packet of command `cmd` with payload `scd`. -/
def requestPacket (reqId cmd : Word16) (scd : List Byte) : List Byte :=
  let a : Ack :=
    { preamble := preambleValue, crc := 0, channelId := channelIdValue, status := requestFlags
      requestId := reqId, payload := scd }
  packetBytes cmd { a with crc := crc32jam (coveredBytes cmd a) }

/-- BUILD_READMEM (R111, R74). -/
def buildReadMem (reqId : Word16) (addr : Word64) (n : Word16) : List Byte :=
  requestPacket reqId cmdReadMem (be64 addr ++ be16 0x0000 ++ be16 n)

/-- BUILD_WRITEMEM (R112, R76). -/
def buildWriteMem (reqId : Word16) (addr : Word64) (data : List Byte) : List Byte :=
  requestPacket reqId cmdWriteMem (be64 addr ++ data)

/-! ### The OperationExecute value (R82) -/

/-- The place of `mode`: `mode<<16`. -/
def opModeShift : Nat := 16

/-- The place of `selector`: `selector<<32`. -/
def opSelShift : Nat := 32

/-- `op | (mode << 16) | (sel << 32)` (R82). -/
def packOperation (op mode : Word16) (sel : Word32) : Word64 :=
  op.setWidth 64 ||| (mode.setWidth 64 <<< opModeShift) ||| (sel.setWidth 64 <<< opSelShift)

/-! ### The decoders -/

/-- Why bytes are no instruction. -/
inductive DecodeError
  /-- fewer bytes than the frame has (R91) -/
  | incomplete
  /-- R113: shorter than its header, or the `length` field disagrees with the size -/
  | badFrameLength
  /-- a packet from the block with no request's commandId (R73) -/
  | notARequest
  /-- a ReadMem request whose payload is not 12 bytes (R74), or a WriteMem request whose payload is
  shorter than its address (R76) -/
  | badRequestPayload
  /-- an OperationExecute value whose code is none of the five (R83), or not 8 bytes (R50) -/
  | unknownOperation
deriving DecidableEq, Repr

/-- The number of data bytes that follow the header of a host frame (R91). -/
def hostDataLength (op : Byte) (len : Word32) : Nat :=
  if op = 0x02 ∨ op = 0x04 ∨ op = 0x13 then len.toNat else 0

/-- The command of a complete host frame (R87, R88, R90). -/
def hostInstr (op h sel mode : Byte) (addr : Word64) (len : Word32) (data : List Byte) : Instr :=
  if op = 0x01 then
    .linkInit (addr.extractLsb' 48 16) (addr.extractLsb' 32 16) (addr.extractLsb' 16 16)
      (addr.extractLsb' 0 16)
  else if op = 0x02 then .writeReg addr data
  else if op = 0x03 then .readReg addr len
  else if op = 0x04 then .crcCompute data
  else if op = 0x10 then .fileOpen sel mode
  else if op = 0x11 then .fileRemove sel
  else if op = 0x12 then .fileLength h
  else if op = 0x13 then .fileWrite h data
  else if op = 0x14 then .fileRead h len
  else if op = 0x15 then .handleDup h
  else if op = 0x16 then .handleDrop h
  else .illegalHostOpcode op

/-- The first command of the host's byte stream and the bytes after it (R87, R91). -/
def decodeHost (bytes : List Byte) : Except DecodeError (Instr × List Byte) :=
  if bytes.length < hdrSize then .error .incomplete
  else
    let n := hostDataLength (byteAt bytes 0) (rdbe32 bytes 12)
    if bytes.length < hdrSize + n then .error .incomplete
    else .ok (hostInstr (byteAt bytes 0) (byteAt bytes 1) (byteAt bytes 2) (byteAt bytes 3)
        (rdbe64 bytes 4) (rdbe32 bytes 12) (slice bytes hdrSize n),
      bytes.drop (hdrSize + n))

/-- A packet the block sends (R74, R76). -/
def decodeRequest (bytes : List Byte) : Except DecodeError Instr :=
  match parsePacket bytes with
  | none => .error .badFrameLength
  | some (cmd, a) =>
    if cmd = cmdReadMem then
      if a.payload.length = 12 then .ok (.readMemRequest (rdbe64 a.payload 0) (rdbe16 a.payload 10))
      else .error .badRequestPayload
    else if cmd = cmdWriteMem then
      if a.payload.length < 8 then .error .badRequestPayload
      else .ok (.writeMemRequest (rdbe64 a.payload 0) (a.payload.drop 8))
    else .error .notARequest

/-- The acknowledgment with command id `cmd` (R73, R114 to R116). -/
def ackInstr (cmd : Word16) (a : Ack) : Instr :=
  if cmd = cmdReadMemAck then .readMemAck a
  else if cmd = cmdWriteMemAck then .writeMemAck a
  else if cmd = cmdPendingAck then .pendingAck a
  else .undefinedCommandId cmd a

/-- A packet the block receives (R113 to R117). -/
def decodeReceived (bytes : List Byte) : Except DecodeError Instr :=
  match parsePacket bytes with
  | none => .error .badFrameLength
  | some (cmd, a) => .ok (ackInstr cmd a)

/-- An OperationExecute value (R82, R83): `op` in bits 15:0, `mode` in 31:16, `sel` in 63:32. -/
def decodeOperation (cfg : Config) (v : Word64) : Except DecodeError Instr :=
  let op := v.extractLsb' 0 16
  let mode := v.extractLsb' opModeShift 16
  let sel := v.extractLsb' opSelShift 32
  if op = cfg.opOpen then .ok (.opOpen mode sel)
  else if op = cfg.opClose then .ok (.opClose mode sel)
  else if op = cfg.opRead then .ok (.opRead mode sel)
  else if op = cfg.opWrite then .ok (.opWrite mode sel)
  else if op = cfg.opDelete then .ok (.opDelete mode sel)
  else .error .unknownOperation

/-- An OperationExecute value from its 8 register bytes in `P_REG_ORDER` (R82). -/
def decodeOperationBytes (cfg : Config) (bytes : List Byte) : Except DecodeError Instr :=
  if bytes.length ≠ 8 then .error .unknownOperation
  else decodeOperation cfg (BitVec.ofNat 64 (dec cfg.regOrder bytes))

/-- The instruction of a byte string on a port. On the host port: the first of the stream. -/
def decode (cfg : Config) (port : Port) (bytes : List Byte) : Except DecodeError Instr :=
  match port with
  | .host => (decodeHost bytes).map Prod.fst
  | .request => decodeRequest bytes
  | .received => decodeReceived bytes
  | .operation => decodeOperationBytes cfg bytes

/-! ### The opcode table's numbering -/

/-- The payload length of the row's shape with zero operands: 12 for ReadMem (R74), 8 for WriteMem
(R76), 4 for the WriteMem and Pending acks (R77, R78), else 0. Log entry 15. -/
def tablePayloadLength (cmd : Word16) : Nat :=
  if cmd = cmdReadMem then 12
  else if cmd = cmdWriteMem then 8
  else if cmd = cmdWriteMemAck ∨ cmd = cmdPendingAck then 4
  else 0

/-- The wire packet of a 16-bit table word: zero operands. -/
def tablePacket (cmd : Word16) : List Byte :=
  packetBytes cmd
    { preamble := preambleValue, crc := 0, channelId := channelIdValue, status := 0, requestId := 0
      payload := List.replicate (tablePayloadLength cmd) 0 }

/-- The interface of a 16-bit table word: the direction of its commandId (R73). -/
def tablePort (cmd : Word16) : Port :=
  if cmd = cmdReadMem ∨ cmd = cmdWriteMem then .request else .received

/-- The host frame of a table word: its bytes, first byte least significant, then zero bytes up to
the end of the header and, where the header's `len` asks for data, zero data. -/
def tableFrame (nbits w : Nat) : List Byte :=
  let head := leBytes (nbits / 8) w
  let header := head ++ List.replicate (hdrSize - head.length) 0
  header ++ List.replicate
    (hdrSize + hostDataLength (byteAt header 0) (rdbe32 header 12) - header.length) 0

/-- The instruction the decoder reads from an instruction whose bits are `w`, numbered as
spec/opcode_table.json numbers them. A row of 16 bits is a commandId, bytes 10 and 11 of a wire
packet; a row of 64 bits is an OperationExecute value with the codes of configuration EX; any other
row is a host frame. Log entry 15. -/
def decodeTableWord (nbits w : Nat) : Option Instr :=
  let r :=
    if nbits = 16 then
      decode .ex (tablePort (BitVec.ofNat 16 w)) (tablePacket (BitVec.ofNat 16 w))
    else if nbits = 64 then decodeOperation .ex (BitVec.ofNat 64 w)
    else decode .ex .host (tableFrame nbits w)
  match r with
  | .ok i => some i
  | .error _ => none

/-! ### The encoder -/

/-- A host frame (R87): unused fields are zero. -/
def hostFrame (op h sel mode : Byte) (addr : Word64) (len : Word32) (data : List Byte) : List Byte :=
  [op, h, sel, mode] ++ be64 addr ++ be32 len ++ data

/-- LINK_INIT's `addr` operand: `cap<<48 | A_HS<<32 | A_BUF<<16 | A_LEN` (R88). -/
def linkInitAddr (cap hs buf lenreg : Word16) : Word64 :=
  (cap.setWidth 64 <<< 48) ||| (hs.setWidth 64 <<< 32) ||| (buf.setWidth 64 <<< 16) |||
    lenreg.setWidth 64

/-- `data.length` as the 32-bit `len` field. -/
def dataLen (data : List Byte) : Word32 := BitVec.ofNat 32 data.length

/-- The register bytes of an OperationExecute value (R82). -/
def operationBytes (cfg : Config) (op mode : Word16) (sel : Word32) : List Byte :=
  enc cfg.regOrder 8 (packOperation op mode sel).toNat

/-- The bytes of an instruction. A request also carries the request id `reqId` (R72), an
OperationExecute value the configuration's code and byte order. -/
def encode (cfg : Config) (reqId : Word16) : Instr → List Byte
  | .linkInit cap hs buf lenreg => hostFrame 0x01 0 0 0 (linkInitAddr cap hs buf lenreg) 0 []
  | .writeReg addr data => hostFrame 0x02 0 0 0 addr (dataLen data) data
  | .readReg addr len => hostFrame 0x03 0 0 0 addr len []
  | .crcCompute data => hostFrame 0x04 0 0 0 0 (dataLen data) data
  | .fileOpen sel mode => hostFrame 0x10 0 sel mode 0 0 []
  | .fileRemove sel => hostFrame 0x11 0 sel 0 0 0 []
  | .fileLength h => hostFrame 0x12 h 0 0 0 0 []
  | .fileWrite h data => hostFrame 0x13 h 0 0 0 (dataLen data) data
  | .fileRead h maxLen => hostFrame 0x14 h 0 0 0 maxLen []
  | .handleDup h => hostFrame 0x15 h 0 0 0 0 []
  | .handleDrop h => hostFrame 0x16 h 0 0 0 0 []
  | .illegalHostOpcode op => hostFrame op 0 0 0 0 0 []
  | .readMemRequest addr n => buildReadMem reqId addr n
  | .readMemAck a => packetBytes cmdReadMemAck a
  | .writeMemRequest addr data => buildWriteMem reqId addr data
  | .writeMemAck a => packetBytes cmdWriteMemAck a
  | .pendingAck a => packetBytes cmdPendingAck a
  | .undefinedCommandId cmd a => packetBytes cmd a
  | .opOpen mode sel => operationBytes cfg cfg.opOpen mode sel
  | .opClose mode sel => operationBytes cfg cfg.opClose mode sel
  | .opRead mode sel => operationBytes cfg cfg.opRead mode sel
  | .opWrite mode sel => operationBytes cfg cfg.opWrite mode sel
  | .opDelete mode sel => operationBytes cfg cfg.opDelete mode sel

end Sys2Proof
end

