-- ==== Sys2Proof/Machine/State.lean ====
section
/-! DEFINITION. The state of the block (10_state.md), as plain data; the reasons a step can stop;
the state after reset. -/

namespace Sys2Proof.Machine

/-- Why a step stops with a fault: never. Every error of the block is the response of a host
command, and the block goes on (60_exceptions.md R190, R193). -/
inductive Fault
deriving DecidableEq, Repr

/-- Why a step is refused. -/
inductive Refusal
  /-- Raised by an arm of `exec` for an instruction without a meaning. Safe. No arm does. -/
  | notModelled (mnemonic : String)
  /-- Raised by `step` where the configuration breaks a constraint of 00_scope.md R8 or of R83
  (93 section 1: `refuse`), or one of log entry 12. Safe. -/
  | badConfiguration
deriving DecidableEq, Repr

/-! ### Outputs (R35, R36) -/

/-- One entry of the block's observable trace (R36). A failed `MemRead` carries `none`. -/
inductive Event
  | memWrite (addr : Word16) (bytes : List Byte) (ok : Bool)
  | memRead (addr : Word16) (n : Nat) (result : Option (List Byte))
  | sleep (ms : Nat)
  | progress (bytesWritten totalBytes : Nat)
  | response (frame : List Byte)
deriving DecidableEq, Repr

/-! ### Errors (60_exceptions.md R191) -/

/-- The subcodes of R191, each raised where R192 says. -/
inductive Err
  | writeFailed
  | readFailed
  | badCommandId
  | badStatus
  | badRequestId
  | responseTooLong
  | badFrameLength
  | crcMismatch
  | shortPending
  | badReadLength
  | fileExists
  | tooLarge
  | bufferTooSmall
  | wrongMode
  | unknownSelector
  | fileEmpty
  | openNotConfirmed
  | badHandle
  | staleHandle
  | linkDown
  | badMode
  | noFreeHandle
  | badCapacity
  | handlesLive
  | refcountOverflow
  | pollTimeout
  | pendingTimeout
  | unknownOpcode
deriving DecidableEq, Repr

/-! ### The handle table (R29) -/

/-- One entry of the handle table: `VALID`, `STALE`, `SEL`, `MODE`, `REFCNT`. -/
structure Handle where
  valid : Bool
  stale : Bool
  sel : Byte
  mode : BitVec 2
  refcnt : Word16
deriving DecidableEq, Repr

/-! ### The sequencer (R33) -/

/-- A pair `(off, c)` of CHUNKS (R141). -/
structure Chunk where
  off : Nat
  size : Nat
deriving DecidableEq, Repr

/-- A register operation in progress, with every loop variable of its pseudocode: the address and
data, the chunk being moved, the chunks to come; for a write the id sent and the count of Pending
acks (R143, R144); for a read the bytes read so far (R149). -/
inductive RegOp
  | write (addr : Word64) (data : List Byte) (cur : Chunk) (rest : List Chunk) (id : Word16)
      (pending : Nat)
  | read (addr : Word64) (cur : Chunk) (rest : List Chunk) (out : List Byte)
deriving DecidableEq, Repr

/-- Where one packet exchange stands (R125, R129, R130, R144, R150): before the named primitive,
sleep or internal computation. A poll carries its count of mismatches `k`; `q` is the received
packet. -/
inductive Phase
  /-- internal: build the request of the current chunk -/
  | encode
  | busyPoll (k : Nat)
  | stage
  | stageLength
  | txReady
  | consumedPoll (k : Nat)
  | txClear
  | readyPoll (k : Nat)
  /-- `sleep(ms)`, then the response-ready poll goes on with count `k` -/
  | sleep (ms : Nat) (k : Nat)
  | readLength
  | readBuffer (m : Nat)
  | rxConsumed (q : List Byte)
  | idlePoll (q : List Byte) (k : Nat)
  | rxClear (q : List Byte)
  /-- internal: DECODE the packet and accept or refuse it -/
  | decode (q : List Byte)
deriving DecidableEq, Repr

/-- Where the command's pseudocode goes on when the register operation in progress is over, with the
command's own variables (R146, R151, R164 to R170). -/
inductive Task
  | writeReg (n : Nat)
  | readReg (n : Nat)
  | openFirstStatus (sel mode : Byte)
  | openClose (sel mode : Byte)
  | openOpen (sel mode : Byte)
  | openSecondStatus (sel mode : Byte)
  | remove
  | length
  | writeSize (h : Byte) (data : List Byte)
  | writeMaxSize (h : Byte) (data : List Byte)
  | writeLength (h : Byte) (data : List Byte) (cur : Chunk) (rest : List Chunk)
  | writeBuffer (h : Byte) (data : List Byte) (cur : Chunk) (rest : List Chunk)
  | writeExecute (h : Byte) (data : List Byte) (cur : Chunk) (rest : List Chunk)
  /-- the chunk's progress event is emitted, and the loop goes on -/
  | writeNext (h : Byte) (data : List Byte) (rest : List Chunk)
  | readSize (h : Byte) (maxLength : Nat)
  | readLength (h : Byte) (n : Nat) (cur : Chunk) (rest : List Chunk) (out : List Byte)
  | readExecute (h : Byte) (n : Nat) (cur : Chunk) (rest : List Chunk) (out : List Byte)
  | readBuffer (h : Byte) (n : Nat) (cur : Chunk) (rest : List Chunk) (out : List Byte)
  | dropClose
deriving DecidableEq, Repr

/-- The position `pos` of R33 in the pseudocode of the command being executed. -/
inductive Pos
  /-- the command is accepted and its first line not yet run -/
  | start
  /-- internal: EXEC of the OperationExecute value `v` (R160) -/
  | operation (v : Word64) (task : Task)
  /-- within the exchange of one chunk -/
  | chunk (op : RegOp) (phase : Phase) (task : Task)
  /-- internal: the register operation is over and read `bytes` -/
  | opDone (bytes : List Byte) (task : Task)
  /-- internal: the last primitive led to `raise e` (R193) -/
  | raised (e : Err) (task : Task)
deriving DecidableEq, Repr

/-- The sequencer state `SEQ` (R33). -/
inductive Seq
  | idle
  | busy (cmd : Instr) (pos : Pos)
deriving DecidableEq, Repr

/-! ### The state -/

/-- Every state element of 10_state.md, then the model's own fields: the parameters, the inputs and
the outputs. -/
structure State where
  /-- the parameters (R7); no step writes them (log entry 1) -/
  cfg : Config
  /-- `LINK_UP` (R21) -/
  linkUp : Bool
  /-- `MPS` (R22) -/
  mps : BitVec 11
  /-- `A_HS`, `A_BUF`, `A_LEN` (R24) -/
  aHs : Word16
  aBuf : Word16
  aLen : Word16
  /-- `REQ_ID` (R25) -/
  reqId : Word16
  /-- `CRC_ACC` (R26) -/
  crcAcc : Word32
  /-- `CMD_CRC_BAD` (R27) -/
  cmdCrcBad : Bool
  /-- `TXBUF`, `RXBUF` (R28) -/
  txBuf : List Byte
  rxBuf : List Byte
  /-- the handle table (R29) -/
  handles : List Handle
  /-- `RESP_KIND`, `RESP_SUB`, `RESP_HANDLE`, `RESP_VALUE`, `RESP_DATA` (R32) -/
  respKind : Byte
  respSub : Byte
  respHandle : Byte
  respValue : Word32
  respData : List Byte
  /-- `SEQ` (R33) -/
  seq : Seq
  /-- input: bytes of host frames issued and not yet accepted (R87, R205; log entry 4) -/
  hostIn : List Byte
  /-- input: reset is asserted (R210; log entry 13) -/
  resetLine : Bool
  /-- input: the channel's answers to the next primitives (R48, R49; log entry 3) -/
  answers : List Answer
  /-- how many free answers have been drawn (log entry 3) -/
  oracleIdx : Nat
  /-- output: the trace so far, oldest entry first (R36; log entry 6) -/
  trace : List Event
deriving DecidableEq, Repr

/-- A handle-table entry after reset: `VALID = 0` (R37); the other fields are unspecified.
DESIGN CHOICE zero, log entry 2. -/
def Handle.reset : Handle :=
  { valid := false, stale := false, sel := 0, mode := 0, refcnt := 0 }

/-- The state after reset with parameters `cfg` (R37): `LINK_UP`, `CMD_CRC_BAD`, every `VALID`,
`RESP_KIND` and `SEQ` as R37 says; the elements it leaves unspecified at the values of log entry 2
(DESIGN CHOICE, unsafe). -/
def State.resetWith (cfg : Config) : State where
  cfg := cfg
  linkUp := false
  mps := 28
  aHs := 0
  aBuf := 0
  aLen := 0
  reqId := 1
  crcAcc := 0
  cmdCrcBad := false
  txBuf := []
  rxBuf := []
  handles := List.replicate cfg.numHandles Handle.reset
  respKind := 0
  respSub := 0
  respHandle := 0
  respValue := 0
  respData := []
  seq := .idle
  hostIn := []
  resetLine := false
  answers := []
  oracleIdx := 0
  trace := []

/-- The machine right after reset, with the example configuration EX (log entry 1). -/
def State.reset : State := State.resetWith Config.ex

end Sys2Proof.Machine
end

