-- ==== Sys2Proof/Machine/Operands.lean ====
section
/-! DEFINITION. The numbers the commands compute with: the constraints on the parameters, the packet
sizes, chunking, the request-id successor, channel locations, the device register map, the
OperationExecute values, and the operand checks on handles and selectors. -/

namespace Sys2Proof.Machine

/-! ### Constraints on the parameters (R8) -/

/-- The constraints of R8. -/
def configR8 (c : Config) : Bool :=
  [c.vBusyClear.length == c.hsWidth,
    c.vTxReady.length == c.hsWidth, c.vTxConsumed.length == c.hsWidth,
    c.vTxClear.length == c.hsWidth,
    c.vRxReady.length == c.hsWidth, c.vRxConsumed.length == c.hsWidth,
    c.vRxIdle.length == c.hsWidth, c.vRxClear.length == c.hsWidth,
    c.vTxConsumed != c.vTxReady, c.vRxIdle != c.vRxConsumed, c.vRxReady != c.vRxIdle,
    decide (c.stSelLsb + c.stSelWidth ≤ 64), decide (8 ≤ c.stSelWidth),
    c.stOpenBit != c.stWrBit, c.stOpenBit != c.stRdBit, c.stWrBit != c.stRdBit,
    [c.stOpenBit, c.stWrBit, c.stRdBit].all
      (fun b => decide (b < c.stSelLsb) || decide (c.stSelLsb + c.stSelWidth ≤ b)),
    decide (2 ≤ c.lenWidth), decide (c.lenWidth ≤ 8)].all id

/-- The five device operation codes are distinct (R83). -/
def configR83 (c : Config) : Bool :=
  decide ([c.opOpen, c.opClose, c.opRead, c.opWrite, c.opDelete].Nodup)

/-- The smallest capacity LINK_INIT accepts (R140), and so the smallest legal `MPS` (R22). -/
def minCapacity : Nat := 28

/-- Bounds that other rules put on the parameters: a handle number fits `RESP_HANDLE` (8 bits, R32),
a status bit is a bit of the 64-bit FileStatus (R84), and for every legal `MPS` the flag primitives
have at most `MPS` bytes (20_memory.md R48, R58) and `MRP >= 1` (R141 needs `Lim >= 1`). DEDUCED, log
entry 12. -/
def configBounds (c : Config) : Bool :=
  [decide (c.numHandles ≤ 256),
    [c.stOpenBit, c.stWrBit, c.stRdBit].all (fun b => decide (b < 64)),
    decide (c.hsWidth ≤ minCapacity), decide (c.readAckHdr ≤ 11)].all id

/-- The configurations the model does not refuse. -/
def configOk (c : Config) : Bool := configR8 c && (configR83 c && configBounds c)

/-! ### Sizes, chunks, request ids -/

/-- `MPS_LIMIT` (R7). -/
def mpsLimit : Nat := 1024

/-- `WRITE_HDR_SIZE` (R7). -/
def writeHdrSize : Nat := 8

/-- `FILE_BUF_CAP` (R7). -/
def fileBufCap : Nat := 0x400

/-- `MWP = MPS - 24` (R23). -/
def State.mwp (s : State) : Nat := s.mps.toNat - (hdrSize + writeHdrSize)

/-- `MRP = MPS - 16 - P_READ_ACK_HDR` (R23). -/
def State.mrp (s : State) : Nat := s.mps.toNat - hdrSize - s.cfg.readAckHdr

/-- `LF = min(FILE_BUF_CAP, MWP)` (R161). -/
def State.lf (s : State) : Nat := min fileBufCap s.mwp

/-- `CHUNKS(n, Lim)` (R141): `ceil(n / Lim)` pairs. For `Lim = 0`, outside the rule's domain, it is
empty (log entry 18). -/
def chunks (n lim : Nat) : List Chunk :=
  (List.range ((n + lim - 1) / lim)).map fun i => ⟨i * lim, min lim (n - i * lim)⟩

/-- The bytes of a chunk: `D[off .. off + c)`. -/
def Chunk.of (c : Chunk) (data : List Byte) : List Byte := slice data c.off c.size

/-- The register address of a chunk: `(a + off) mod 2^64` (R141). -/
def chunkAddr (a : Word64) (c : Chunk) : Word64 := a + BitVec.ofNat 64 c.off

/-- The first request id (R25). -/
def firstRequestId : Word16 := 1

/-- The request id after which the counter wraps (R25). -/
def lastRequestId : Word16 := 65535

/-- `NEXT_ID` (R142). -/
def nextId (r : Word16) : Word16 := if r = lastRequestId then firstRequestId else r + 1

/-! ### Channel locations (R47), modulo 2^16 -/

def State.busyAddr (s : State) : Word16 := s.aHs + s.cfg.oBusy
def State.txAddr (s : State) : Word16 := s.aHs + s.cfg.oTx
def State.rxAddr (s : State) : Word16 := s.aHs + s.cfg.oRx

/-! ### The device register map (R50, R51): addresses, and sizes in bytes -/

def regFileStatus : Word64 := 0xD0000100
def regOperationExecute : Word64 := 0xD0003000
def regFileAccessBuffer : Word64 := 0xD0004000
def regFileAccessLength : Word64 := 0xD0005100
/-- FileAccessOffset: the device has it, and no command of the file store accesses it (R52). -/
def regFileAccessOffset : Word64 := 0xD0005000
def regFileSizeBase : Word64 := 0xD0005300
def regFileSizeMax : Word64 := 0xD0005210

def sizeFileStatus : Nat := 8
def sizeOperationExecute : Nat := 8
def sizeFileAccessLength : Nat := 4
def sizeFileAccessOffset : Nat := 4
def sizeFileSize : Nat := 4
def sizeFileSizeMax : Nat := 4

/-- The stride of the size registers (R51). -/
def fileSizeStride : Word64 := 4

/-- FileSize(sel): `0xD0005300 + 4 × sel` (R51). -/
def regFileSize (sel : Byte) : Word64 := regFileSizeBase + fileSizeStride * sel.setWidth 64

/-- The register map of R50 with the size register of `sel`: address and size of each register. -/
def deviceRegisters (sel : Byte) : List (Word64 × Nat) :=
  [(regFileStatus, sizeFileStatus), (regOperationExecute, sizeOperationExecute),
    (regFileAccessBuffer, fileBufCap), (regFileAccessLength, sizeFileAccessLength),
    (regFileAccessOffset, sizeFileAccessOffset), (regFileSize sel, sizeFileSize),
    (regFileSizeMax, sizeFileSizeMax)]

/-! ### Operand checks -/

/-- `VALID[h] = 1` for a handle number in range (R162, R169, R170), and the entry. -/
def State.liveHandle (s : State) (h : Byte) : Option Handle :=
  if h.toNat < s.cfg.numHandles then
    match s.handles[h.toNat]? with
    | some e => if e.valid then some e else none
    | none => none
  else none

/-- `SEL[h]`. -/
def State.selOf (s : State) (h : Byte) : Byte :=
  match s.handles[h.toNat]? with
  | some e => e.sel
  | none => 0

/-- The open modes `Read = 1` and `Write = 2` (R86). -/
def modeRead : BitVec 2 := 1
def modeWrite : BitVec 2 := 2

/-- `mode ∈ {1, 2}` (R164). -/
def openModeOk (mode : Byte) : Bool :=
  mode = modeRead.setWidth 8 || mode = modeWrite.setWidth 8

/-- `sel ∈ KNOWN_SELECTORS` (R164, R165). -/
def State.knowsSelector (s : State) (sel : Byte) : Bool := s.cfg.knownSelectors.contains sel

end Sys2Proof.Machine
end

