-- ==== Sys2Proof/Machine/Flags.lean ====
section
/-! DEFINITION. Status outputs and status inputs: the codes of the errors (60_exceptions.md
R191), the response frame with its flags byte (30_encoding.md R89), the receive-side CRC comparison
(40_crc.md R105) and the FileStatus snapshot (30_encoding.md R84). -/

namespace Sys2Proof.Machine

/-- `(RESP_KIND, RESP_SUB)` of an error (R191). -/
def errCode : Err → Byte × Byte
  | .writeFailed => (1, 1)
  | .readFailed => (1, 2)
  | .badCommandId => (2, 1)
  | .badStatus => (2, 2)
  | .badRequestId => (2, 3)
  | .responseTooLong => (2, 4)
  | .badFrameLength => (2, 5)
  | .crcMismatch => (2, 6)
  | .shortPending => (2, 7)
  | .badReadLength => (2, 8)
  | .fileExists => (3, 1)
  | .tooLarge => (3, 2)
  | .bufferTooSmall => (3, 3)
  | .wrongMode => (3, 4)
  | .unknownSelector => (3, 5)
  | .fileEmpty => (3, 6)
  | .openNotConfirmed => (3, 7)
  | .badHandle => (3, 8)
  | .staleHandle => (3, 9)
  | .linkDown => (3, 10)
  | .badMode => (3, 11)
  | .noFreeHandle => (3, 12)
  | .badCapacity => (3, 13)
  | .handlesLive => (3, 14)
  | .refcountOverflow => (3, 15)
  | .pollTimeout => (4, 1)
  | .pendingTimeout => (4, 2)
  | .unknownOpcode => (5, 1)

/-- The errors of kind TIMEOUT, which take the link down (R197). -/
def isTimeout (e : Err) : Bool := (errCode e).1 = 4

/-- The flags byte of the response: bit 0 is `CMD_CRC_BAD`, the others zero (R89). -/
def responseFlags (cmdCrcBad : Bool) : Byte := if cmdCrcBad then 1 else 0

/-- The response frame (R89). -/
def responseFrame (kind sub handle flags : Byte) (value : Word32) (data : List Byte) : List Byte :=
  [kind, sub, handle, flags] ++ be32 value ++ data

/-- The CRC the checker computes for a received packet (R103, R105). -/
def receivedCrc (cmd : Word16) (a : Ack) : Word32 := crc32jam (coveredBytes cmd a)

/-- The packet's CRC field differs from the CRC the checker computes (R105). -/
def crcDiffers (cmd : Word16) (a : Ack) : Bool := receivedCrc cmd a != a.crc

/-- FileStatusSnapshot (R15, R84). -/
structure FileStatus where
  isOpen : Bool
  writable : Bool
  readable : Bool
  openSelector : Nat
deriving DecidableEq, Repr

/-- The snapshot of the 8 bytes read from FileStatus (R84). -/
def fileStatus (c : Config) (bytes : List Byte) : FileStatus :=
  let v := dec c.regOrder bytes
  { isOpen := v.testBit c.stOpenBit
    writable := v.testBit c.stWrBit
    readable := v.testBit c.stRdBit
    openSelector := v / 2 ^ c.stSelLsb % 2 ^ c.stSelWidth }

end Sys2Proof.Machine
end

