-- ==== Sys2Proof/Machine/Ops.lean ====
section
/-! DEFINITION. The named operations over the state: accepting a command, writing its response,
raising an error (the block's exception entry, 60_exceptions.md R193; there is no return from one,
R195), the handle table, the channel primitives, and reset. -/

namespace Sys2Proof.Machine

/-! ### Commands and responses -/

/-- A host command is accepted: `CMD_CRC_BAD <- 0` (R27) and `SEQ <- BUSY` before the command's
first line (R33). -/
def State.accept (s : State) (cmd : Instr) : State :=
  { s with cmdCrcBad := false, seq := .busy cmd .start }

/-- The sequencer moves to position `p` of the command being executed. -/
def State.goto (s : State) (p : Pos) : State :=
  match s.seq with
  | .busy cmd _ => { s with seq := .busy cmd p }
  | .idle => s

/-- The block emits an output (R36). -/
def State.emit (s : State) (e : Event) : State := { s with trace := s.trace ++ [e] }

/-- The response is written: the response registers (R32), the response frame (R89), and
`SEQ <- IDLE` (R33). -/
def State.respond (s : State) (kind sub handle : Byte) (value : Word32) (data : List Byte) : State :=
  { s with
    respKind := kind, respSub := sub, respHandle := handle, respValue := value, respData := data
    seq := .idle
    trace := s.trace ++
      [.response (responseFrame kind sub handle (responseFlags s.cmdCrcBad) value data)] }

/-- The response of a command that ends without a raise (R32). -/
def State.respondOk (s : State) (handle : Byte) (value : Word32) (data : List Byte) : State :=
  s.respond 0 0 handle value data

/-- The response of a command that raised `e` (R193). -/
def State.respondErr (s : State) (e : Err) : State :=
  s.respond (errCode e).1 (errCode e).2 0 0 []

/-- Where the command's pseudocode goes on after the register operation in progress. -/
def Pos.task? : Pos → Option Task
  | .start => none
  | .operation _ task | .chunk _ _ task | .opDone _ task | .raised _ task => some task

/-- Whether the command being executed swallows errors: the implicit Close of HANDLE_DROP (R170). -/
def State.swallows (s : State) : Bool :=
  match s.seq with
  | .busy _ pos => pos.task? = some .dropClose
  | .idle => false

/-- `LINK_UP <- 0` at a Timeout (R197, R219). -/
def State.linkDownOnTimeout (s : State) (e : Err) : State :=
  { s with linkUp := s.linkUp && !isTimeout e }

/-- `raise K(s)` (R193, R197): the command ends with the error's response and everything else stays;
in HANDLE_DROP's Close the error is swallowed and the command ends OK (R170, R195). -/
def State.raiseErr (s : State) (e : Err) : State :=
  if s.swallows then (s.linkDownOnTimeout e).respondOk 0 0 []
  else (s.linkDownOnTimeout e).respondErr e

/-! ### The handle table (R29 to R31, R171) -/

/-- `MARK_STALE` of every live entry whose selector satisfies `p` (R171). -/
def markStale (p : Byte → Bool) (hs : List Handle) : List Handle :=
  hs.map fun e => if e.valid && p e.sel then { e with stale := true } else e

/-- `MARK_STALE(all)`. -/
def State.markAllStale (s : State) : State := { s with handles := markStale (fun _ => true) s.handles }

/-- `MARK_STALE(selector sel)`. -/
def State.markSelStale (s : State) (sel : Byte) : State :=
  { s with handles := markStale (fun x => x == sel) s.handles }

/-- The lowest-numbered entry with `VALID = 0` (R30). -/
def State.freeHandle? (s : State) : Option Nat := s.handles.findIdx? (fun e => !e.valid)

/-- Entry `h` is written. -/
def State.setHandle (s : State) (h : Nat) (e : Handle) : State :=
  { s with handles := s.handles.set h e }

/-- Some entry has `VALID = 1` (R140). -/
def State.anyHandleLive (s : State) : Bool := s.handles.any (fun e => e.valid)

/-! ### Channel primitives (R11, R48, R49) -/

/-- A channel primitive about to be issued. -/
inductive Primitive
  | memWrite (addr : Word16) (bytes : List Byte)
  | memRead (addr : Word16) (n : Nat)
deriving DecidableEq, Repr

/-- The outcome of a primitive for the channel's answer: the bytes read (none for a write), or the
error `fail` raises (R199). An answer to a read of another length is `fail` (R49). -/
def Primitive.outcome : Primitive → Answer → Except Err (List Byte)
  | .memWrite _ _, .done _ => .ok []
  | .memWrite _ _, .fail => .error .writeFailed
  | .memRead _ n, .done bytes => if bytes.length = n then .ok bytes else .error .readFailed
  | .memRead _ _, .fail => .error .readFailed

/-- The trace entry of a primitive (R36). -/
def Primitive.event : Primitive → Except Err (List Byte) → Event
  | .memWrite a bytes, .ok _ => .memWrite a bytes true
  | .memWrite a bytes, .error _ => .memWrite a bytes false
  | .memRead a n, .ok bytes => .memRead a n (some bytes)
  | .memRead a n, .error _ => .memRead a n none

/-- `limit != none and k >= limit` (R129). -/
def limitReached (limit : Option Nat) (k : Nat) : Bool :=
  match limit with
  | none => false
  | some l => decide (l ≤ k)

/-- `limit != none and p > limit` (R144). -/
def limitExceeded (limit : Option Nat) (p : Nat) : Bool :=
  match limit with
  | none => false
  | some l => decide (l < p)

/-! ### Reset (R210) -/

/-- Reset is applied: every state element takes its value of `State.resetWith`; the command in
progress is abandoned without a response, what was already issued stands in the trace, and the
environment's inputs stay (log entry 13). -/
def State.applyReset (s : State) : State :=
  { State.resetWith s.cfg with
    hostIn := s.hostIn, answers := s.answers, oracleIdx := s.oracleIdx, trace := s.trace }

end Sys2Proof.Machine
end

