-- ==== Sys2Proof/Machine/Exchange.lean ====
section
/-! DEFINITION. One packet exchange: the register operations RegWrite and RegRead and their chunks
(43_register_link.md R143, R149), SEND and RECEIVE (42_handshake.md), DECODE and the acceptance of
each acknowledgment (41_framer.md, 43_register_link.md R144, R145, R150). -/

namespace Sys2Proof.Machine

/-! ### Register operations -/

/-- RegWrite(a, D) begins (R143); `task` says where the command goes on after it. -/
def State.startWrite (s : State) (a : Word64) (data : List Byte) (task : Task) : State :=
  match chunks data.length s.mwp with
  | [] => s.goto (.opDone [] task)
  | c :: cs => s.goto (.chunk (.write a data c cs s.reqId 0) .encode task)

/-- RegRead(a, n) begins (R149). -/
def State.startRead (s : State) (a : Word64) (n : Nat) (task : Task) : State :=
  match chunks n s.mrp with
  | [] => s.goto (.opDone [] task)
  | c :: cs => s.goto (.chunk (.read a c cs []) .encode task)

/-- `EXEC(op, sel, mode)` is reached (R160). -/
def State.startOperation (s : State) (op mode : Word16) (sel : Word32) (task : Task) : State :=
  s.goto (.operation (packOperation op mode sel) task)

/-- The write of an OperationExecute value (R160): RegWrite of its 8 bytes. -/
def State.writeOperation (s : State) (v : Word64) (task : Task) : State :=
  s.startWrite regOperationExecute (enc s.cfg.regOrder sizeOperationExecute v.toNat) task

/-- The current chunk is over, having read `payload` (none for a write): the next chunk, or the end
of the register operation (R143, R149). -/
def State.chunkDone (s : State) (op : RegOp) (payload : List Byte) (task : Task) : State :=
  match op with
  | .write _ _ _ [] _ _ => s.goto (.opDone [] task)
  | .write a data _ (c :: cs) id p => s.goto (.chunk (.write a data c cs id p) .encode task)
  | .read _ _ [] out => s.goto (.opDone (out ++ payload) task)
  | .read a _ (c :: cs) out => s.goto (.chunk (.read a c cs (out ++ payload)) .encode task)

/-! ### SEND -/

/-- The request instruction of the current chunk (R144, R150). -/
def RegOp.request : RegOp → Instr
  | .write a data c _ _ _ => .writeMemRequest (chunkAddr a c) (c.of data)
  | .read a c _ _ => .readMemRequest (chunkAddr a c) (BitVec.ofNat 16 c.size)

/-- The variables of WRITE_CHUNK at its start: `id <- REQ_ID`, `p <- 0` (R144). -/
def RegOp.arm (op : RegOp) (reqId : Word16) : RegOp :=
  match op with
  | .write a data c rest _ _ => .write a data c rest reqId 0
  | .read .. => op

/-- The encoder's effect, `TXBUF <- P` and `CRC_ACC` (R110), and the start of SEND(P) (R125). -/
def State.sendPacket (s : State) (packet : List Byte) (op : RegOp) (task : Task) : State :=
  { s with txBuf := packet, crcAcc := crc32jam (packet.drop 6) }.goto
    (.chunk (op.arm s.reqId) (.busyPoll 0) task)

/-- SEND(BUILD_READMEM(a, n)) (R111, R150). -/
def State.sendReadMem (s : State) (addr : Word64) (n : Word16) (op : RegOp) (task : Task) : State :=
  s.sendPacket (buildReadMem s.reqId addr n) op task

/-- SEND(BUILD_WRITEMEM(a, d)) (R112, R144). -/
def State.sendWriteMem (s : State) (addr : Word64) (data : List Byte) (op : RegOp) (task : Task) :
    State :=
  s.sendPacket (buildWriteMem s.reqId addr data) op task

/-! ### The primitives of SEND and RECEIVE (R125, R130) -/

/-- The primitive a handshake phase issues; none for a sleep or an internal computation. -/
def State.phasePrimitive (s : State) : Phase → Option Primitive
  | .encode | .sleep _ _ | .decode _ => none
  | .busyPoll _ => some (.memRead s.busyAddr s.cfg.hsWidth)
  | .stage => some (.memWrite s.aBuf s.txBuf)
  | .stageLength => some (.memWrite s.aLen (enc s.cfg.lenOrder s.cfg.lenWidth s.txBuf.length))
  | .txReady => some (.memWrite s.txAddr s.cfg.vTxReady)
  | .consumedPoll _ => some (.memRead s.txAddr s.cfg.hsWidth)
  | .txClear => some (.memWrite s.txAddr s.cfg.vTxClear)
  | .readyPoll _ => some (.memRead s.rxAddr s.cfg.hsWidth)
  | .readLength => some (.memRead s.aLen s.cfg.lenWidth)
  | .readBuffer m => some (.memRead s.aBuf m)
  | .rxConsumed _ => some (.memWrite s.rxAddr s.cfg.vRxConsumed)
  | .idlePoll _ _ => some (.memRead s.rxAddr s.cfg.hsWidth)
  | .rxClear _ => some (.memWrite s.rxAddr s.cfg.vRxClear)

/-- The channel primitive the block is about to issue, if it stands before one. -/
def State.pending (s : State) : Option Primitive :=
  match s.seq with
  | .busy _ (.chunk _ phase _) => s.phasePrimitive phase
  | _ => none

/-- One mismatching poll, the `k`-th (R129): Timeout at the limit, else the poll goes on. -/
def State.pollMiss (s : State) (k : Nat) (op : RegOp) (again : Phase) (task : Task) : State :=
  if limitReached s.cfg.pollLimit k then s.goto (.raised .pollTimeout task)
  else s.goto (.chunk op again task)

/-- The response-ready poll sleeps before its next read, where the interval is not 0 (R129, R131). -/
def readyPollAgain (delay k : Nat) : Phase := if 0 < delay then .sleep delay k else .readyPoll k

/-- The response length `m` is known (R132, R133). -/
def State.responseLength (s : State) (m : Nat) (op : RegOp) (task : Task) : State :=
  if s.mps.toNat < m then s.goto (.raised .responseTooLong task)
  else if 0 < m then s.goto (.chunk op (.readBuffer m) task)
  else s.goto (.chunk op (.rxConsumed []) task)

/-- The handshake goes on after the primitive of `phase` returned `bytes` (R125, R129, R130). -/
def State.advance (s : State) (op : RegOp) (phase : Phase) (task : Task) (bytes : List Byte) : State :=
  match phase with
  | .encode | .sleep _ _ | .decode _ => s
  | .busyPoll k =>
    if bytes = s.cfg.vBusyClear then s.goto (.chunk op .stage task)
    else s.pollMiss (k + 1) op (.busyPoll (k + 1)) task
  | .stage => s.goto (.chunk op .stageLength task)
  | .stageLength => s.goto (.chunk op .txReady task)
  | .txReady => s.goto (.chunk op (.consumedPoll 0) task)
  | .consumedPoll k =>
    if bytes = s.cfg.vTxConsumed then s.goto (.chunk op .txClear task)
    else s.pollMiss (k + 1) op (.consumedPoll (k + 1)) task
  | .txClear => s.goto (.chunk op (.readyPoll 0) task)
  | .readyPoll k =>
    if bytes = s.cfg.vRxReady then s.goto (.chunk op .readLength task)
    else s.pollMiss (k + 1) op (readyPollAgain s.cfg.rxPollDelay (k + 1)) task
  | .readLength => s.responseLength (dec s.cfg.lenOrder bytes) op task
  | .readBuffer _ => s.goto (.chunk op (.rxConsumed bytes) task)
  | .rxConsumed q => s.goto (.chunk op (.idlePoll q 0) task)
  | .idlePoll q k =>
    if bytes = s.cfg.vRxIdle then s.goto (.chunk op (.rxClear q) task)
    else s.pollMiss (k + 1) op (.idlePoll q (k + 1)) task
  | .rxClear q => s.goto (.chunk op (.decode q) task)

/-- The channel answers the pending primitive (R11, R36, R199): the trace entry, then the raise of a
`fail` or the next position. -/
def State.feed (s : State) (p : Primitive) (a : Answer) : State :=
  match s.seq with
  | .busy _ (.chunk op phase task) =>
    match p.outcome a with
    | .error e => (s.emit (p.event (.error e))).goto (.raised e task)
    | .ok bytes => (s.emit (p.event (.ok bytes))).advance op phase task bytes
  | _ => s

/-! ### DECODE and acceptance -/

/-- The state DECODE leaves when the framing is right (R113, R105): `RXBUF`, `CRC_ACC`, and
`CMD_CRC_BAD` where the CRC differs. -/
def State.received (s : State) (cmd : Word16) (a : Ack) : State :=
  { s with
    rxBuf := packetBytes cmd a
    crcAcc := receivedCrc cmd a
    cmdCrcBad := s.cmdCrcBad || crcDiffers cmd a }

/-- The CRC check raises only when `P_RX_CRC_ENFORCE = true` (R105). -/
def State.crcRaises (s : State) (cmd : Word16) (a : Ack) : Bool :=
  s.cfg.rxCrcEnforce && crcDiffers cmd a

/-- A ReadMem ack is received (R150, R116; for a write R145). -/
def State.onReadMemAck (s : State) (a : Ack) (op : RegOp) (task : Task) : State :=
  let s' := s.received cmdReadMemAck a
  if s.crcRaises cmdReadMemAck a then s'.raiseErr .crcMismatch
  else
    match op with
    | .write .. => s'.raiseErr .badCommandId
    | .read _ c _ _ =>
      if a.status ≠ s.cfg.statusSuccess then s'.raiseErr .badStatus
      else if a.payload.length ≠ c.size then s'.raiseErr .badReadLength
      else s'.chunkDone op a.payload task

/-- A WriteMem ack is received (R145, R114; for a read R150). -/
def State.onWriteMemAck (s : State) (a : Ack) (op : RegOp) (task : Task) : State :=
  let s' := s.received cmdWriteMemAck a
  if s.crcRaises cmdWriteMemAck a then s'.raiseErr .crcMismatch
  else
    match op with
    | .read .. => s'.raiseErr .badCommandId
    | .write _ _ _ _ id _ =>
      if a.status ≠ s.cfg.statusSuccess then s'.raiseErr .badStatus
      else if a.requestId ≠ id then s'.raiseErr .badRequestId
      else { s' with reqId := nextId s.reqId }.chunkDone op [] task

/-- The retry-after of a Pending ack, in milliseconds (R78, R115). -/
def retryAfter (a : Ack) : Nat := (rdbe16 a.payload 2).toNat

/-- A Pending ack is received (R144, R115; for a read R150, R196). -/
def State.onPendingAck (s : State) (a : Ack) (op : RegOp) (task : Task) : State :=
  let s' := s.received cmdPendingAck a
  if s.crcRaises cmdPendingAck a then s'.raiseErr .crcMismatch
  else
    match op with
    | .read .. => s'.raiseErr .badCommandId
    | .write addr data c rest id p =>
      if a.payload.length < 4 then s'.raiseErr .shortPending
      else if limitExceeded s.cfg.pendingLimit (p + 1) then s'.raiseErr .pendingTimeout
      else s'.goto (.chunk (.write addr data c rest id (p + 1)) (.sleep (retryAfter a) 0) task)

/-- A packet that is no acknowledgment is received (R73, R145, R150). -/
def State.onOtherPacket (s : State) (cmd : Word16) (a : Ack) : State :=
  let s' := s.received cmd a
  if s.crcRaises cmd a then s'.raiseErr .crcMismatch else s'.raiseErr .badCommandId

/-- A received byte string that is no packet is refused (R113). -/
def State.refuseFrame (s : State) (q : List Byte) : State :=
  { s with rxBuf := q }.raiseErr .badFrameLength

end Sys2Proof.Machine
end

