-- ==== Sys2Proof/Machine/Sequencer.lean ====
section
/-! DEFINITION. The sequencer (10_state.md R33): how the pseudocode of each command goes on when a
register operation is over (44_file_store.md), and one step of the block. -/

namespace Sys2Proof.Machine

/-! ### The command's pseudocode after a register operation -/

/-- The loop of FILE_WRITE (R167): the next chunk's FileAccessLength write, or the end. -/
def State.fileWriteLoop (s : State) (h : Byte) (data : List Byte) : List Chunk → State
  | [] => s.respondOk 0 (dataLen data) []
  | c :: cs =>
    s.startWrite regFileAccessLength (enc s.cfg.regOrder sizeFileAccessLength c.size)
      (.writeLength h data c cs)

/-- The loop of FILE_READ (R168): the next chunk's FileAccessLength write, or the end. -/
def State.fileReadLoop (s : State) (h : Byte) (n : Nat) (out : List Byte) : List Chunk → State
  | [] => s.respondOk 0 (BitVec.ofNat 32 n) out
  | c :: cs =>
    s.startWrite regFileAccessLength (enc s.cfg.regOrder sizeFileAccessLength c.size)
      (.readLength h n c cs out)

/-- FILE_OPEN after its first snapshot (R164 step 1): `MARK_STALE(all)`, then the Close of the
reported selector if a file is open, else the Open. -/
def State.afterFirstStatus (s : State) (sel mode : Byte) (st : FileStatus) : State :=
  if st.isOpen then
    s.markAllStale.startOperation s.cfg.opClose 0 (BitVec.ofNat 32 st.openSelector)
      (.openClose sel mode)
  else
    s.markAllStale.startOperation s.cfg.opOpen (mode.setWidth 16) (sel.setWidth 32)
      (.openOpen sel mode)

/-- FILE_OPEN after its second snapshot (R164 steps 3 and 4). -/
def State.afterSecondStatus (s : State) (sel mode : Byte) (st : FileStatus) : State :=
  if st.isOpen then
    match s.freeHandle? with
    | some h =>
      (s.setHandle h
        { valid := true, stale := false, sel := sel, mode := mode.setWidth 2, refcnt := 1 }).respondOk
        (BitVec.ofNat 8 h) 0 []
    | none => s.raiseErr .noFreeHandle
  else s.raiseErr .openNotConfirmed

/-- FILE_WRITE after the size is read (R167). -/
def State.afterWriteSize (s : State) (h : Byte) (data : List Byte) (size : Nat) : State :=
  if size ≠ 0 then s.raiseErr .fileExists
  else s.startRead regFileSizeMax sizeFileSizeMax (.writeMaxSize h data)

/-- FILE_WRITE after the maximum size is read (R167). -/
def State.afterWriteMaxSize (s : State) (h : Byte) (data : List Byte) (maxSize : Nat) : State :=
  if maxSize < data.length then s.raiseErr .tooLarge
  else s.fileWriteLoop h data (chunks data.length s.lf)

/-- FILE_READ after the size is read (R168). -/
def State.afterReadSize (s : State) (h : Byte) (maxLength n : Nat) : State :=
  if n = 0 then s.raiseErr .fileEmpty
  else if maxLength < n then s.raiseErr .bufferTooSmall
  else s.fileReadLoop h n [] (chunks n s.lf)

/-- The command goes on after a register operation that read `bytes`. -/
def State.continueTask (s : State) (bytes : List Byte) : Task → State
  | .writeReg n => s.respondOk 0 (BitVec.ofNat 32 n) []
  | .readReg n => s.respondOk 0 (BitVec.ofNat 32 n) bytes
  | .openFirstStatus sel mode => s.afterFirstStatus sel mode (fileStatus s.cfg bytes)
  | .openClose sel mode =>
    s.startOperation s.cfg.opOpen (mode.setWidth 16) (sel.setWidth 32) (.openOpen sel mode)
  | .openOpen sel mode => s.startRead regFileStatus sizeFileStatus (.openSecondStatus sel mode)
  | .openSecondStatus sel mode => s.afterSecondStatus sel mode (fileStatus s.cfg bytes)
  | .remove => s.respondOk 0 0 []
  | .length => s.respondOk 0 (BitVec.ofNat 32 (dec s.cfg.regOrder bytes)) []
  | .writeSize h data => s.afterWriteSize h data (dec s.cfg.regOrder bytes)
  | .writeMaxSize h data => s.afterWriteMaxSize h data (dec s.cfg.regOrder bytes)
  | .writeLength h data c cs => s.startWrite regFileAccessBuffer (c.of data) (.writeBuffer h data c cs)
  | .writeBuffer h data c cs =>
    s.startOperation s.cfg.opWrite 0 ((s.selOf h).setWidth 32) (.writeExecute h data c cs)
  | .writeExecute h data c cs =>
    (s.emit (.progress (c.off + c.size) data.length)).goto (.opDone [] (.writeNext h data cs))
  | .writeNext h data cs => s.fileWriteLoop h data cs
  | .readSize h maxLength => s.afterReadSize h maxLength (dec s.cfg.regOrder bytes)
  | .readLength h n c cs out =>
    s.startOperation s.cfg.opRead 0 ((s.selOf h).setWidth 32) (.readExecute h n c cs out)
  | .readExecute h n c cs out => s.startRead regFileAccessBuffer c.size (.readBuffer h n c cs out)
  | .readBuffer h n _ cs out => s.fileReadLoop h n (out ++ bytes) cs
  | .dropClose => s.respondOk 0 0 []

/-! ### Steps of the sequencer (R33) -/

/-- The channel's answer to the next primitive: the first answer at hand, else a free value
(log entry 3). -/
def State.takeAnswer (s : State) : Answer × State :=
  match s.answers with
  | a :: as => (a, { s with answers := as })
  | [] => (Config.deviceAnswer s.oracleIdx, { s with oracleIdx := s.oracleIdx + 1 })

/-- One channel primitive: it is issued and answered. -/
def State.issue (s : State) (p : Primitive) : State := s.takeAnswer.2.feed p s.takeAnswer.1

/-- `pos` advances by one channel primitive, one sleep or one internal computation (R33), where the
block does not stand before an instruction. -/
def State.resume (s : State) : State :=
  match s.seq with
  | .idle | .busy _ .start => s
  | .busy _ (.operation v task) => s.writeOperation v task
  | .busy _ (.opDone bytes task) => s.continueTask bytes task
  | .busy _ (.raised e _) => s.raiseErr e
  | .busy _ (.chunk op phase task) =>
    match phase with
    | .sleep ms k => (s.emit (.sleep ms)).goto (.chunk op (.readyPoll k) task)
    | .decode q => s.refuseFrame q
    | phase =>
      match s.phasePrimitive phase with
      | some p => s.issue p
      | none => s

/-- A host command is issued. An IDLE block accepts it (R33); at its position `start` the block runs
its first line `begin`, up to its first register operation or its response; any other command is
held while the block is BUSY (R205; log entry 17). -/
def runCommand (cmd : Instr) (begin : State → State) (s : State) :
    Host.Outcome State Fault Refusal :=
  match s.seq with
  | .idle => .next (s.accept cmd)
  | .busy c .start => if c = cmd then .next (begin s) else .next s
  | .busy _ _ => .next s

end Sys2Proof.Machine
end

