-- ==== Sys2Proof/Machine/FileCommands.lean ====
section
/-! DEFINITION. The host commands of the file store: FILE_OPEN, FILE_REMOVE, FILE_LENGTH,
FILE_WRITE, FILE_READ, HANDLE_DUP, HANDLE_DROP (44_file_store.md R162 to R170). What they do after
their first register operation stands in Sequencer.lean. -/

namespace Sys2Proof.Machine

/-- CHECK_HANDLE(h, need) (R162): the first check that fails; `need = none` is `any`. -/
def State.checkHandle (s : State) (h : Byte) (need : Option (BitVec 2)) : Option Err :=
  if !s.linkUp then some .linkDown
  else
    match s.liveHandle h with
    | none => some .badHandle
    | some e =>
      if e.stale then some .staleHandle
      else
        match need with
        | none => none
        | some m => if e.mode = m then none else some .wrongMode

/-- SIZE(SEL[h]) is read (R160, R51). -/
def State.startSize (s : State) (h : Byte) (task : Task) : State :=
  s.startRead (regFileSize (s.selOf h)) sizeFileSize task

/-- The checks of FILE_OPEN before any primitive (R164). -/
def State.checkOpen (s : State) (sel mode : Byte) : Option Err :=
  if !s.linkUp then some .linkDown
  else if !s.knowsSelector sel then some .unknownSelector
  else if !openModeOk mode then some .badMode
  else if s.freeHandle? = none then some .noFreeHandle
  else none

/-- The checks of FILE_REMOVE before any primitive (R165). -/
def State.checkRemove (s : State) (sel : Byte) : Option Err :=
  if !s.linkUp then some .linkDown
  else if !s.knowsSelector sel then some .unknownSelector
  else none

/-- A command whose checks come first: the first error is raised, else `body` runs. -/
def State.unlessErr (s : State) (check : Option Err) (body : State → State) : State :=
  match check with
  | some e => s.raiseErr e
  | none => body s

/-- FILE_OPEN (R164): the checks, then the first status snapshot. -/
def execFileOpen (sel mode : Byte) (s : State) : Host.Outcome State Fault Refusal :=
  runCommand (.fileOpen sel mode)
    (fun s => s.unlessErr (s.checkOpen sel mode)
      fun s => s.startRead regFileStatus sizeFileStatus (.openFirstStatus sel mode)) s

/-- FILE_REMOVE (R165): the checks, then the Delete. -/
def execFileRemove (sel : Byte) (s : State) : Host.Outcome State Fault Refusal :=
  runCommand (.fileRemove sel)
    (fun s => s.unlessErr (s.checkRemove sel)
      fun s => s.startOperation s.cfg.opDelete 0 (sel.setWidth 32) .remove) s

/-- FILE_LENGTH (R166). -/
def execFileLength (h : Byte) (s : State) : Host.Outcome State Fault Refusal :=
  runCommand (.fileLength h)
    (fun s => s.unlessErr (s.checkHandle h none) fun s => s.startSize h .length) s

/-- FILE_WRITE (R167). -/
def execFileWrite (h : Byte) (data : List Byte) (s : State) : Host.Outcome State Fault Refusal :=
  runCommand (.fileWrite h data)
    (fun s => s.unlessErr (s.checkHandle h (some modeWrite))
      fun s => s.startSize h (.writeSize h data)) s

/-- FILE_READ (R168). -/
def execFileRead (h : Byte) (maxLen : Word32) (s : State) : Host.Outcome State Fault Refusal :=
  runCommand (.fileRead h maxLen)
    (fun s => s.unlessErr (s.checkHandle h (some modeRead))
      fun s => s.startSize h (.readSize h maxLen.toNat)) s

/-- HANDLE_DUP's pseudocode (R169). -/
def State.handleDup (s : State) (h : Byte) : State :=
  match s.liveHandle h with
  | none => s.raiseErr .badHandle
  | some e =>
    if e.refcnt = 65535 then s.raiseErr .refcountOverflow
    else (s.setHandle h.toNat { e with refcnt := e.refcnt + 1 }).respondOk h 0 []

/-- HANDLE_DUP (R169). -/
def execHandleDup (h : Byte) (s : State) : Host.Outcome State Fault Refusal :=
  runCommand (.handleDup h) (fun s => s.handleDup h) s

/-- The last drop of a handle of selector `sel` (R170): with the link up, the entries of the selector
turn stale and the Close is issued; without it the command ends. -/
def State.lastDrop (s : State) (sel : Byte) : State :=
  if s.linkUp then (s.markSelStale sel).startOperation s.cfg.opClose 0 (sel.setWidth 32) .dropClose
  else s.respondOk 0 0 []

/-- HANDLE_DROP's pseudocode (R170). -/
def State.handleDrop (s : State) (h : Byte) : State :=
  match s.liveHandle h with
  | none => s.raiseErr .badHandle
  | some e =>
    if e.refcnt - 1 = 0 then
      (s.setHandle h.toNat { e with refcnt := 0, valid := false }).lastDrop e.sel
    else (s.setHandle h.toNat { e with refcnt := e.refcnt - 1 }).respondOk 0 0 []

/-- HANDLE_DROP (R170). -/
def execHandleDrop (h : Byte) (s : State) : Host.Outcome State Fault Refusal :=
  runCommand (.handleDrop h) (fun s => s.handleDrop h) s

end Sys2Proof.Machine
end

