-- ==== Sys2Proof/Machine/LinkCommands.lean ====
section
/-! DEFINITION. The host commands of the register link and of the CRC-32 checker: LINK_INIT,
WRITE_REG, READ_REG (43_register_link.md R140, R146, R151), CRC_COMPUTE (40_crc.md R106), and the
illegal opcodes (30_encoding.md R90). -/

namespace Sys2Proof.Machine

/-- The link state LINK_INIT writes when it succeeds (R140, R22, R24, R25). -/
def State.establish (s : State) (cap hs buf lenreg : Word16) : State :=
  { s with
    mps := BitVec.ofNat 11 (min cap.toNat mpsLimit)
    aHs := hs, aBuf := buf, aLen := lenreg, reqId := firstRequestId, linkUp := true }

/-- LINK_INIT's pseudocode (R140). -/
def State.linkInit (s : State) (cap hs buf lenreg : Word16) : State :=
  if s.anyHandleLive then s.raiseErr .handlesLive
  else if cap.toNat < minCapacity then s.raiseErr .badCapacity
  else (s.establish cap hs buf lenreg).respondOk 0 (BitVec.ofNat 32 (min cap.toNat mpsLimit)) []

/-- LINK_INIT (R140). -/
def execLinkInit (cap hs buf lenreg : Word16) (s : State) : Host.Outcome State Fault Refusal :=
  runCommand (.linkInit cap hs buf lenreg) (fun s => s.linkInit cap hs buf lenreg) s

/-- WRITE_REG (R146). -/
def execWriteReg (addr : Word64) (data : List Byte) (s : State) : Host.Outcome State Fault Refusal :=
  runCommand (.writeReg addr data)
    (fun s =>
      if s.linkUp then s.startWrite addr data (.writeReg data.length) else s.raiseErr .linkDown) s

/-- READ_REG (R151). -/
def execReadReg (addr : Word64) (len : Word32) (s : State) : Host.Outcome State Fault Refusal :=
  runCommand (.readReg addr len)
    (fun s =>
      if s.linkUp then s.startRead addr len.toNat (.readReg len.toNat) else s.raiseErr .linkDown) s

/-- CRC_COMPUTE (R106). -/
def execCrcCompute (data : List Byte) (s : State) : Host.Outcome State Fault Refusal :=
  runCommand (.crcCompute data)
    (fun s => { s with crcAcc := crc32jam data }.respondOk 0 (crc32jam data) []) s

/-- An illegal opcode (R90): the response, and no other state, `CMD_CRC_BAD` included (log entry 8);
held while the block is BUSY. -/
def execIllegalHostOpcode (_op : Byte) (s : State) : Host.Outcome State Fault Refusal :=
  match s.seq with
  | .idle => .next (s.respondErr .unknownOpcode)
  | .busy _ _ => .next s

end Sys2Proof.Machine
end

