-- ==== Sys2Proof/Machine/Operations.lean ====
section
/-! DEFINITION. The OperationExecute values as instructions (30_encoding.md R82, R83): at an EXEC
position the block writes the value's 8 bytes to the OperationExecute register (44_file_store.md
R160). At any other position nothing happens (log entry 7). -/

namespace Sys2Proof.Machine

/-- The block stands before EXEC: it writes the value of `op`, `mode` and `sel`. -/
def atOperation (op mode : Word16) (sel : Word32) (s : State) : Host.Outcome State Fault Refusal :=
  match s.seq with
  | .busy _ (.operation _ task) => .next (s.writeOperation (packOperation op mode sel) task)
  | _ => .next s

/-- OperationExecute Open (R83, R164). -/
def execOpOpen (mode : Word16) (sel : Word32) (s : State) : Host.Outcome State Fault Refusal :=
  atOperation s.cfg.opOpen mode sel s

/-- OperationExecute Close (R83, R164, R170). -/
def execOpClose (mode : Word16) (sel : Word32) (s : State) : Host.Outcome State Fault Refusal :=
  atOperation s.cfg.opClose mode sel s

/-- OperationExecute Read (R83, R168). -/
def execOpRead (mode : Word16) (sel : Word32) (s : State) : Host.Outcome State Fault Refusal :=
  atOperation s.cfg.opRead mode sel s

/-- OperationExecute Write (R83, R167). -/
def execOpWrite (mode : Word16) (sel : Word32) (s : State) : Host.Outcome State Fault Refusal :=
  atOperation s.cfg.opWrite mode sel s

/-- OperationExecute Delete (R83, R165). -/
def execOpDelete (mode : Word16) (sel : Word32) (s : State) : Host.Outcome State Fault Refusal :=
  atOperation s.cfg.opDelete mode sel s

end Sys2Proof.Machine
end

