-- ==== Sys2Proof/Machine/WirePackets.lean ====
section
/-! DEFINITION. The wire packets as instructions (30_encoding.md R73): the requests the block sends
at an ENCODE position, the packets it receives at a DECODE position. At any other position the
block neither sends nor reads a packet (R65, R81, R134, R200), and nothing happens (log entry 7). -/

namespace Sys2Proof.Machine

/-- The block stands before the request of a chunk: `f` is what it does there. -/
def atEncode (f : RegOp → Task → State) (s : State) : Host.Outcome State Fault Refusal :=
  match s.seq with
  | .busy _ (.chunk op .encode task) => .next (f op task)
  | _ => .next s

/-- The block stands before a received packet: `f` is what it does with it. -/
def atDecode (f : RegOp → Task → State) (s : State) : Host.Outcome State Fault Refusal :=
  match s.seq with
  | .busy _ (.chunk op (.decode _) task) => .next (f op task)
  | _ => .next s

/-- ReadMem request: BUILD_READMEM, then SEND (R111, R125). -/
def execReadMemRequest (addr : Word64) (n : Word16) (s : State) :
    Host.Outcome State Fault Refusal :=
  atEncode (s.sendReadMem addr n) s

/-- WriteMem request: BUILD_WRITEMEM, then SEND (R112, R125). -/
def execWriteMemRequest (addr : Word64) (data : List Byte) (s : State) :
    Host.Outcome State Fault Refusal :=
  atEncode (s.sendWriteMem addr data) s

/-- ReadMem ack: DECODE and the read acceptance (R113, R116, R150). -/
def execReadMemAck (a : Ack) (s : State) : Host.Outcome State Fault Refusal :=
  atDecode (s.onReadMemAck a) s

/-- WriteMem ack: DECODE and ACCEPT_WRITE_ACK (R113, R114, R145). -/
def execWriteMemAck (a : Ack) (s : State) : Host.Outcome State Fault Refusal :=
  atDecode (s.onWriteMemAck a) s

/-- Pending ack: DECODE and the pending loop (R113, R115, R144). -/
def execPendingAck (a : Ack) (s : State) : Host.Outcome State Fault Refusal :=
  atDecode (s.onPendingAck a) s

/-- A packet with any other commandId: DECODE and the refusal BAD_COMMAND_ID (R73, R113). -/
def execUndefinedCommandId (cmd : Word16) (a : Ack) (s : State) :
    Host.Outcome State Fault Refusal :=
  atDecode (fun _ _ => s.onOtherPacket cmd a) s

end Sys2Proof.Machine
end

