-- ==== Sys2Proof/Machine/Dispatch.lean ====
section
/-! DEFINITION. The dispatch: one arm per instruction, one direct call of its meaning. -/

namespace Sys2Proof.Machine

def exec (i : Instr) (s : State) : Host.Outcome State Fault Refusal :=
  match i with
  | .linkInit cap hs buf lenreg => Sys2Proof.Machine.execLinkInit cap hs buf lenreg s
  | .writeReg addr data => Sys2Proof.Machine.execWriteReg addr data s
  | .readReg addr len => Sys2Proof.Machine.execReadReg addr len s
  | .crcCompute data => Sys2Proof.Machine.execCrcCompute data s
  | .fileOpen sel mode => Sys2Proof.Machine.execFileOpen sel mode s
  | .fileRemove sel => Sys2Proof.Machine.execFileRemove sel s
  | .fileLength h => Sys2Proof.Machine.execFileLength h s
  | .fileWrite h data => Sys2Proof.Machine.execFileWrite h data s
  | .fileRead h maxLen => Sys2Proof.Machine.execFileRead h maxLen s
  | .handleDup h => Sys2Proof.Machine.execHandleDup h s
  | .handleDrop h => Sys2Proof.Machine.execHandleDrop h s
  | .illegalHostOpcode op => Sys2Proof.Machine.execIllegalHostOpcode op s
  | .readMemRequest addr n => Sys2Proof.Machine.execReadMemRequest addr n s
  | .readMemAck a => Sys2Proof.Machine.execReadMemAck a s
  | .writeMemRequest addr data => Sys2Proof.Machine.execWriteMemRequest addr data s
  | .writeMemAck a => Sys2Proof.Machine.execWriteMemAck a s
  | .pendingAck a => Sys2Proof.Machine.execPendingAck a s
  | .undefinedCommandId cmd a => Sys2Proof.Machine.execUndefinedCommandId cmd a s
  | .opOpen mode sel => Sys2Proof.Machine.execOpOpen mode sel s
  | .opClose mode sel => Sys2Proof.Machine.execOpClose mode sel s
  | .opRead mode sel => Sys2Proof.Machine.execOpRead mode sel s
  | .opWrite mode sel => Sys2Proof.Machine.execOpWrite mode sel s
  | .opDelete mode sel => Sys2Proof.Machine.execOpDelete mode sel s

end Sys2Proof.Machine
end

