-- ==== Sys2Proof/Machine/Fetch.lean ====
section
/-! DEFINITION. Where the block takes its next instruction from: the host's byte stream when it is
IDLE; the command accepted, the request, the received packet or the OperationExecute value at hand
when it stands before one. And how an instruction is placed there. -/

namespace Sys2Proof.Machine

/-- The instruction the block stands before, with the state in which it is executed; none while it
waits for the host or for the channel. A host frame is taken from the stream (R87, R91, R205). -/
def State.fetch (s : State) : Option (Instr × State) :=
  match s.seq with
  | .idle =>
    match decodeHost s.hostIn with
    | .ok (i, rest) => some (i, { s with hostIn := rest })
    | .error _ => none
  | .busy cmd .start => some (cmd, s)
  | .busy _ (.chunk op .encode _) => some (op.request, s)
  | .busy _ (.chunk _ (.decode q) _) =>
    match decodeReceived q with
    | .ok i => some (i, s)
    | .error _ => none
  | .busy _ (.operation v _) =>
    match decodeOperation s.cfg v with
    | .ok i => some (i, s)
    | .error _ => none
  | .busy _ _ => none

/-- The position before an instruction of a wire packet or an OperationExecute value: a register
write or read of one chunk under a WRITE_REG or READ_REG, or an EXEC under a FILE_REMOVE. -/
def placeSeq (i : Instr) (packet : List Byte) (v : Word64) : Seq :=
  match i with
  | .readMemRequest addr n =>
    .busy (.readReg addr (n.setWidth 32))
      (.chunk (.read addr ⟨0, n.toNat⟩ [] []) .encode (.readReg n.toNat))
  | .writeMemRequest addr data =>
    .busy (.writeReg addr data)
      (.chunk (.write addr data ⟨0, data.length⟩ [] 0 0) .encode (.writeReg data.length))
  | .readMemAck a =>
    .busy (.readReg 0 (dataLen a.payload))
      (.chunk (.read 0 ⟨0, a.payload.length⟩ [] []) (.decode packet) (.readReg a.payload.length))
  | .writeMemAck a | .pendingAck a | .undefinedCommandId _ a =>
    .busy (.writeReg 0 [0])
      (.chunk (.write 0 [0] ⟨0, 1⟩ [] a.requestId 0) (.decode packet) (.writeReg 1))
  | .opOpen .. | .opClose .. | .opRead .. | .opWrite .. | .opDelete .. =>
    .busy (.fileRemove 0) (.operation v .remove)
  | _ => .idle

/-- `s` with the instruction of a table word placed where `step` takes its next one: a wire packet or
an OperationExecute value at the position of the sequencer that holds it, a host frame at the front
of the host's stream, the block then being IDLE. Reset is not asserted. Log entry 4, 7, 15. -/
def State.place (s : State) (nbits w : Nat) : State :=
  if nbits = 16 ∨ nbits = 64 then
    match decodeTableWord nbits w with
    | some i =>
      { s with
        resetLine := false
        seq := placeSeq i (tablePacket (BitVec.ofNat 16 w)) (BitVec.ofNat 64 w) }
    | none => { s with resetLine := false }
  else { s with resetLine := false, seq := .idle, hostIn := tableFrame nbits w ++ s.hostIn }

end Sys2Proof.Machine
end

