-- ==== Sys2Proof/Machine/Step.lean ====
section
/-! DEFINITION. One step of the machine. -/

namespace Sys2Proof.Machine

/-- A configuration that breaks its constraints is refused (R8). An asserted reset is applied (R210).
Else the block executes the instruction it stands before; where it stands before none, an IDLE block
waits for the host (R210) and a BUSY one advances by one channel primitive, one sleep or one internal
computation (R33; log entry 5). -/
def step (s : State) : Host.Outcome State Fault Refusal :=
  if !configOk s.cfg then .refused .badConfiguration
  else if s.resetLine then .next s.applyReset
  else
    match s.fetch with
    | some (i, s') => exec i s'
    | none =>
      match s.seq with
      | .idle => .next s
      | .busy _ _ => .next s.resume

/-- `s` with the instruction of a table word stored where `step` fetches its next instruction. -/
def State.withFetchWord (s : State) (nbits w : Nat) : State := s.place nbits w

end Sys2Proof.Machine
end

