-- ==== Sys2Proof/Safety.lean ====
section
/-! DEFINITION. The terms of the statements: how a command ends, what a prompt channel answers and
what the block does on those answers, and the invariants. No definition of the machine uses one. -/

namespace Sys2Proof.Machine

/-! ### The end of a command (10_state.md R32, 30_encoding.md R89) -/

/-- `s` after the response with these fields: the response registers, the response frame at the end
of the trace, `SEQ = IDLE`. -/
def State.ended (s : State) (kind sub handle : Byte) (value : Word32) (data : List Byte) : State :=
  { s with
    respKind := kind, respSub := sub, respHandle := handle, respValue := value, respData := data
    seq := .idle
    trace := s.trace ++
      [.response ([kind, sub, handle, if s.cmdCrcBad then 1 else 0] ++ be32 value ++ data)] }

/-- `s` after a raise of kind `kind` and subcode `sub` (60_exceptions.md R193). -/
def State.failed (s : State) (kind sub : Byte) : State := s.ended kind sub 0 0 []

/-- `s` after a raise within a register operation of `task`: the raise ends the command (R193), or,
in HANDLE_DROP's Close, is swallowed and the command ends OK (44_file_store.md R170). -/
def State.aborted (s : State) (task : Task) (kind sub : Byte) : State :=
  if task = .dropClose then s.ended 0 0 0 0 [] else s.failed kind sub

/-- The configuration is legal and reset is not asserted. -/
def State.running (s : State) : Prop := configOk s.cfg = true ∧ s.resetLine = false

/-- The block has accepted the command `i` and can run it with the link: it is running, stands before
the command's first line, the link is up and `MPS` is legal (R22). -/
def State.ready (s : State) (i : Instr) : Prop :=
  s.running ∧ s.seq = .busy i .start ∧ s.linkUp = true ∧ 28 ≤ s.mps.toNat ∧ s.mps.toNat ≤ 1024

/-! ### Steps taken together (10_state.md R33) -/

/-- `n` steps of the machine, as far as each answers a next state. -/
def steps : Nat → State → Host.Outcome State Fault Refusal
  | 0, s => .next s
  | n + 1, s =>
    match step s with
    | .next t => steps n t
    | .fault r => .fault r
    | .refused r => .refused r

/-- Some number of steps leads from `s` to `t`. -/
def State.reaches (s t : State) : Prop := ∃ n, steps n s = .next t

/-! ### A prompt channel (42_handshake.md R125, R130, R135)

Every poll matches at its first read and no primitive fails. -/

/-- The answers to the 6 primitives of SEND. -/
def sendAnswers (c : Config) : List Answer :=
  [.done c.vBusyClear, .done [], .done [], .done [], .done c.vTxConsumed, .done []]

/-- The answers to the primitives of RECEIVE that returns `q`: 6, or 5 where `q` is empty (R133). -/
def receiveAnswers (c : Config) (q : List Byte) : List Answer :=
  [.done c.vRxReady, .done (enc c.lenOrder c.lenWidth q.length)] ++
    (if q = [] then [] else [.done q]) ++ [.done [], .done c.vRxIdle, .done []]

/-- The trace of SEND(packet). -/
def State.sendEvents (s : State) (packet : List Byte) : List Event :=
  [.memRead (s.aHs + s.cfg.oBusy) s.cfg.hsWidth (some s.cfg.vBusyClear),
    .memWrite s.aBuf packet true,
    .memWrite s.aLen (enc s.cfg.lenOrder s.cfg.lenWidth packet.length) true,
    .memWrite (s.aHs + s.cfg.oTx) s.cfg.vTxReady true,
    .memRead (s.aHs + s.cfg.oTx) s.cfg.hsWidth (some s.cfg.vTxConsumed),
    .memWrite (s.aHs + s.cfg.oTx) s.cfg.vTxClear true]

/-- The trace of RECEIVE that returns `q`. -/
def State.receiveEvents (s : State) (q : List Byte) : List Event :=
  [.memRead (s.aHs + s.cfg.oRx) s.cfg.hsWidth (some s.cfg.vRxReady),
    .memRead s.aLen s.cfg.lenWidth (some (enc s.cfg.lenOrder s.cfg.lenWidth q.length))] ++
    (if q = [] then [] else [.memRead s.aBuf q.length (some q)]) ++
    [.memWrite (s.aHs + s.cfg.oRx) s.cfg.vRxConsumed true,
      .memRead (s.aHs + s.cfg.oRx) s.cfg.hsWidth (some s.cfg.vRxIdle),
      .memWrite (s.aHs + s.cfg.oRx) s.cfg.vRxClear true]

/-- The answers of one exchange in which the device acknowledges with packet `cmd`, `a`. -/
def exchangeAnswers (c : Config) (cmd : Word16) (a : Ack) : List Answer :=
  sendAnswers c ++ receiveAnswers c (packetBytes cmd a)

/-- `s` after SEND(packet) and the RECEIVE and DECODE of the acknowledgment `cmd`, `a`. -/
def State.exchanged (s : State) (packet : List Byte) (cmd : Word16) (a : Ack) : State :=
  { s with
    txBuf := packet
    rxBuf := packetBytes cmd a
    crcAcc := crc32jam (coveredBytes cmd a)
    cmdCrcBad := s.cmdCrcBad || crc32jam (coveredBytes cmd a) != a.crc
    trace := s.trace ++ s.sendEvents packet ++ s.receiveEvents (packetBytes cmd a) }

/-- The CRC check of a received packet raises nothing (R105). -/
def State.crcAccepted (s : State) (cmd : Word16) (a : Ack) : Bool :=
  !s.cfg.rxCrcEnforce || crc32jam (coveredBytes cmd a) == a.crc

/-- The acknowledgment has success status, fits the receive capacity, and its CRC raises nothing
(R105, R132, R145, R150). -/
def State.ackAccepted (s : State) (cmd : Word16) (a : Ack) : Bool :=
  a.status == s.cfg.statusSuccess && decide (16 + a.payload.length ≤ s.mps.toNat) &&
    s.crcAccepted cmd a

/-- `s` after DECODE of the received packet `cmd`, `a` (41_framer.md R113, 40_crc.md R105). -/
def State.decoded (s : State) (cmd : Word16) (a : Ack) : State :=
  { s with
    rxBuf := packetBytes cmd a
    crcAcc := crc32jam (coveredBytes cmd a)
    cmdCrcBad := s.cmdCrcBad || crc32jam (coveredBytes cmd a) != a.crc }

/-! ### Register operations on a prompt channel (43_register_link.md R143, R149) -/

/-- Each write chunk is acknowledged under its own id, starting with `id` (R142, R145). -/
def State.writesAccepted (s : State) : List Chunk → List Ack → Word16 → Bool
  | [], [], _ => true
  | _ :: cs, a :: as, id =>
    s.ackAccepted 0x0803 a && a.requestId == id && s.writesAccepted cs as (nextId id)
  | _, _, _ => false

/-- Each read chunk is acknowledged with its number of bytes (R116, R150). -/
def State.readsAccepted (s : State) : List Chunk → List Ack → Bool
  | [], [] => true
  | c :: cs, a :: as =>
    s.ackAccepted 0x0801 a && a.payload.length == c.size && s.readsAccepted cs as
  | _, _ => false

/-- `s` after the acknowledged write of the chunks of `data` at `addr`. -/
def State.wroteChunks (addr : Word64) (data : List Byte) : List Chunk → List Ack → State → State
  | c :: cs, a :: as, s =>
    State.wroteChunks addr data cs as
      { s.exchanged
          (buildWriteMem s.reqId (addr + BitVec.ofNat 64 c.off) (slice data c.off c.size)) 0x0803 a
        with reqId := nextId s.reqId }
  | _, _, s => s

/-- `s` after the acknowledged read of chunks at `addr`. -/
def State.readChunks (addr : Word64) : List Chunk → List Ack → State → State
  | c :: cs, a :: as, s =>
    State.readChunks addr cs as
      (s.exchanged (buildReadMem s.reqId (addr + BitVec.ofNat 64 c.off) (BitVec.ofNat 16 c.size))
        0x0801 a)
  | _, _, s => s

/-- The data of read acknowledgments, in order (R149). -/
def payloads (acks : List Ack) : List Byte := acks.flatMap Ack.payload

/-! ### Commands as lists of register operations -/

/-- A register operation with its acknowledgments, or a progress event (R173). -/
inductive Action
  | write (addr : Word64) (data : List Byte) (acks : List Ack)
  | read (addr : Word64) (n : Nat) (acks : List Ack)
  | progress (written total : Nat)
deriving DecidableEq, Repr

/-- The acknowledgments of an action are accepted; `id` is the request id before it. -/
def State.actionAccepted (s : State) (id : Word16) : Action → Bool
  | .write _ data acks => s.writesAccepted (chunks data.length s.mwp) acks id
  | .read _ n acks => s.readsAccepted (chunks n s.mrp) acks
  | .progress _ _ => true

/-- The channel's answers during an action. -/
def Action.answers (c : Config) : Action → List Answer
  | .write _ _ acks => acks.flatMap (exchangeAnswers c 0x0803)
  | .read _ _ acks => acks.flatMap (exchangeAnswers c 0x0801)
  | .progress _ _ => []

/-- `s` after an action. -/
def State.did (s : State) : Action → State
  | .write addr data acks => State.wroteChunks addr data (chunks data.length s.mwp) acks s
  | .read addr n acks => State.readChunks addr (chunks n s.mrp) acks s
  | .progress w t => { s with trace := s.trace ++ [.progress w t] }

/-- `s` after the actions, in order. -/
def State.didAll (s : State) : List Action → State
  | [] => s
  | x :: xs => (s.did x).didAll xs

/-- Every acknowledgment of the actions is accepted. -/
def State.allAccepted (s : State) : List Action → Bool
  | [] => true
  | x :: xs => s.actionAccepted s.reqId x && (s.did x).allAccepted xs

/-- The channel's answers during the actions. -/
def answersOf (c : Config) (xs : List Action) : List Answer := xs.flatMap (Action.answers c)

/-- The channel at `s` plays the acknowledgments of `xs` promptly, then has `rest` left. -/
def State.plays (s : State) (xs : List Action) (rest : List Answer) : Prop :=
  s.allAccepted xs = true ∧ s.answers = answersOf s.cfg xs ++ rest

/-- `s` after the actions, the channel's answers `rest` being left. -/
def State.played (s : State) (xs : List Action) (rest : List Answer) : State :=
  { s.didAll xs with answers := rest }

/-- The value of an OperationExecute write (30_encoding.md R82), as an integer. -/
def operationValue (op mode : Word16) (sel : Word32) : Nat :=
  op.toNat + mode.toNat * 2 ^ 16 + sel.toNat * 2 ^ 32

/-- EXEC(op, sel, mode) (44_file_store.md R160), acknowledged by `acks`. -/
def execAction (c : Config) (op mode : Word16) (sel : Word32) (acks : List Ack) : Action :=
  .write 0xD0003000 (enc c.regOrder 8 (operationValue op mode sel)) acks

/-- The register operations of FILE_WRITE's chunks (R167), each chunk with three lists of
acknowledgments. -/
def fileWriteActions (c : Config) (sel : Byte) (data : List Byte) :
    List Chunk → List (List Ack × List Ack × List Ack) → List Action
  | k :: ks, (a1, a2, a3) :: as =>
    .write 0xD0005100 (enc c.regOrder 4 k.size) a1 ::
      .write 0xD0004000 (slice data k.off k.size) a2 ::
      execAction c c.opWrite 0 (sel.setWidth 32) a3 ::
      .progress (k.off + k.size) data.length :: fileWriteActions c sel data ks as
  | _, _ => []

/-- The register operations of FILE_READ's chunks (R168). -/
def fileReadActions (c : Config) (sel : Byte) :
    List Chunk → List (List Ack × List Ack × List Ack) → List Action
  | k :: ks, (a1, a2, a3) :: as =>
    .write 0xD0005100 (enc c.regOrder 4 k.size) a1 ::
      execAction c c.opRead 0 (sel.setWidth 32) a2 ::
      .read 0xD0004000 k.size a3 :: fileReadActions c sel ks as
  | _, _ => []

/-! ### The invariants -/

/-- A valid entry has an open-count of at least 1, mode Read or Write, and a known selector
(10_state.md R29, 44_file_store.md R164). -/
def handleOk (c : Config) (e : Handle) : Bool :=
  !e.valid || (e.refcnt != 0 && (e.mode == 1 || e.mode == 2) && c.knownSelectors.contains e.sel)

/-- At most one entry has `VALID = 1` and `STALE = 0` (10_state.md R31). -/
def oneOpen (hs : List Handle) : Bool :=
  decide ((hs.filter fun e => e.valid && !e.stale).length ≤ 1)

/-- Every valid entry is stale. -/
def allStale (hs : List Handle) : Bool := hs.all fun e => !e.valid || e.stale

/-- The continuation belongs to the command being executed (10_state.md R33). -/
def Task.belongsTo : Task → Instr → Bool
  | .writeReg _, .writeReg .. => true
  | .readReg _, .readReg .. => true
  | .openFirstStatus sel mode, .fileOpen sel' mode'
  | .openClose sel mode, .fileOpen sel' mode'
  | .openOpen sel mode, .fileOpen sel' mode'
  | .openSecondStatus sel mode, .fileOpen sel' mode' => sel == sel' && mode == mode'
  | .remove, .fileRemove _ => true
  | .length, .fileLength _ => true
  | .writeSize h data, .fileWrite h' data'
  | .writeMaxSize h data, .fileWrite h' data'
  | .writeLength h data _ _, .fileWrite h' data'
  | .writeBuffer h data _ _, .fileWrite h' data'
  | .writeExecute h data _ _, .fileWrite h' data'
  | .writeNext h data _, .fileWrite h' data' => h == h' && data == data'
  | .readSize h maxLength, .fileRead h' maxLen => h == h' && maxLength == maxLen.toNat
  | .readLength h .., .fileRead h' _
  | .readExecute h .., .fileRead h' _
  | .readBuffer h .., .fileRead h' _ => h == h'
  | .dropClose, .handleDrop _ => true
  | _, _ => false

/-- The register operation before the continuation is a read (43_register_link.md R149,
44_file_store.md). -/
def Task.afterRead : Task → Bool
  | .readReg _ | .openFirstStatus .. | .openSecondStatus .. | .length | .writeSize .. | .writeMaxSize ..
  | .readSize .. | .readBuffer .. => true
  | _ => false

/-- The register operation is a read. -/
def RegOp.isRead : RegOp → Bool
  | .read .. => true
  | .write .. => false

/-- The errors a primitive leads to (60_exceptions.md R192, R197): a Timeout only with a limit. -/
def State.primitiveErr (s : State) : Err → Bool
  | .writeFailed | .readFailed | .responseTooLong => true
  | .pollTimeout => s.cfg.pollLimit.isSome
  | _ => false

/-- The position fits its continuation: a read or a write, and a raise that a primitive leads to. -/
def State.posOk (s : State) : Pos → Bool
  | .operation _ task => !task.afterRead
  | .chunk op _ task => op.isRead == task.afterRead
  | .raised e _ => s.primitiveErr e
  | .start | .opDone _ _ => true

/-- What holds while FILE_OPEN is in progress (44_file_store.md R164): its operands passed their
checks, and from its first OperationExecute write on every valid entry is stale (R171). -/
def State.taskOk (s : State) : Task → Bool
  | .openFirstStatus sel mode => s.knowsSelector sel && openModeOk mode
  | .openClose sel mode | .openOpen sel mode | .openSecondStatus sel mode =>
    s.knowsSelector sel && openModeOk mode && allStale s.handles
  | _ => true

/-- A BUSY block executes a host command; past the command's first line its link is up, and the
position and its continuation fit the command. -/
def State.seqOk (s : State) : Bool :=
  match s.seq with
  | .idle => true
  | .busy cmd pos =>
    match pos.task? with
    | none => cmd.port == .host
    | some task => s.linkUp && task.belongsTo cmd && s.posOk pos && s.taskOk task

/-- The invariant of the block's state. -/
structure Inv (s : State) : Prop where
  /-- the handle table has `P_NUM_HANDLES` entries (R29) -/
  table : s.handles.length = s.cfg.numHandles
  entries : s.handles.all (handleOk s.cfg) = true
  /-- R31 -/
  open1 : oneOpen s.handles = true
  /-- `REQ_ID` is never 0 (R25) -/
  reqId : s.reqId ≠ 0
  /-- `MPS` is legal (R22) -/
  mpsLow : 28 ≤ s.mps.toNat
  mpsHigh : s.mps.toNat ≤ 1024
  seq : s.seqOk = true

/-- The chunks of a register operation fit one packet each (R79, R141, R143, R149). -/
def State.opFits (s : State) : RegOp → Bool
  | .write _ data c rest _ _ =>
    (c :: rest).all fun k =>
      decide (1 ≤ k.size) && decide (k.size ≤ s.mps.toNat - 24) &&
        decide (k.off + k.size ≤ data.length)
  | .read _ c rest _ =>
    (c :: rest).all fun k => decide (1 ≤ k.size) && decide (k.size ≤ s.mps.toNat - 16)

/-- The packet at hand fits `MPS`: the one being sent (R125), the length read (R132), the one
received. -/
def State.phaseFits (s : State) : Phase → Bool
  | .busyPoll _ | .stage | .stageLength | .txReady | .consumedPoll _ | .txClear =>
    decide (16 ≤ s.txBuf.length) && decide (s.txBuf.length ≤ s.mps.toNat)
  | .readBuffer m => decide (1 ≤ m) && decide (m ≤ s.mps.toNat)
  | .rxConsumed q | .idlePoll q _ | .rxClear q | .decode q => decide (q.length ≤ s.mps.toNat)
  | .encode | .readyPoll _ | .sleep _ _ | .readLength => true

/-- The invariant of the packet exchange in progress. -/
structure PacketInv (s : State) : Prop where
  mpsLow : 28 ≤ s.mps.toNat
  mpsHigh : s.mps.toNat ≤ 1024
  fits :
    (match s.seq with
      | .busy _ (.chunk op phase _) => s.opFits op && s.phaseFits phase
      | _ => true) = true

/-! ### Outputs -/

/-- The channel locations and widths of 20_memory.md R47 and R59: the primitive is at the busy,
data-ready or response-ready flag, at the length register or at the staging area, with the width of
each. The block only reads the busy flag. -/
def State.inMap (s : State) : Event → Bool
  | .memRead a n _ =>
    ((a == s.aHs + s.cfg.oBusy || a == s.aHs + s.cfg.oTx || a == s.aHs + s.cfg.oRx) &&
        n == s.cfg.hsWidth) ||
      (a == s.aLen && n == s.cfg.lenWidth) || a == s.aBuf
  | .memWrite a bytes _ =>
    ((a == s.aHs + s.cfg.oTx || a == s.aHs + s.cfg.oRx) && bytes.length == s.cfg.hsWidth) ||
      (a == s.aLen && bytes.length == s.cfg.lenWidth) ||
      (a == s.aBuf && decide (16 ≤ bytes.length))
  | _ => true

/-- A primitive moves from 1 to `MPS` bytes (20_memory.md R48, R58). -/
def State.fitsMps (s : State) : Event → Bool
  | .memRead _ n _ => decide (1 ≤ n) && decide (n ≤ s.mps.toNat)
  | .memWrite _ bytes _ => decide (1 ≤ bytes.length) && decide (bytes.length ≤ s.mps.toNat)
  | _ => true

/-- The (kind, subcode) pairs of the table of 60_exceptions.md R191. -/
def responseCodes : List (Byte × Byte) :=
  [(0, 0), (1, 1), (1, 2),
    (2, 1), (2, 2), (2, 3), (2, 4), (2, 5), (2, 6), (2, 7), (2, 8),
    (3, 1), (3, 2), (3, 3), (3, 4), (3, 5), (3, 6), (3, 7), (3, 8), (3, 9), (3, 10), (3, 11),
    (3, 12), (3, 13), (3, 14), (3, 15), (4, 1), (4, 2), (5, 1)]

/-- The event is a response. -/
def Event.isResponse : Event → Bool
  | .response _ => true
  | _ => false

/-- The event is a channel primitive or a sleep. -/
def Event.isWait : Event → Bool
  | .memRead .. | .memWrite .. | .sleep _ => true
  | .progress .. | .response _ => false

end Sys2Proof.Machine
end

