-- ==== Sys2Proof/Certificates/Slice0/Obligations.lean ====
section
/-! DEFINITION. The statements for the provers. Where a docstring says "model's choice", the clause
rests on the named entry of the assumption log and not on a rule. -/

section Statements

open Sys2Proof Sys2Proof.Machine

/-! ### Encodings -/

/-- Decoding gives back every well-formed instruction, on every port, with every operand
(30_encoding.md sections 1 to 3). -/
def Obligations.DecodeEncodeAgree : Prop :=
  ∀ (cfg : Config) (reqId : Word16) (i : Instr), configOk cfg = true → i.wf = true →
    decode cfg i.port (encode cfg reqId i) = .ok i

/-- R87, R88: where each operand of a host frame stands, which frames carry data, and that a field a
command does not use is ignored. -/
def Obligations.HostFrameFields : Prop :=
  ∀ (h sel mode : Byte) (addr : Word64) (len : Word32) (data rest : List Byte),
    data.length = len.toNat →
    let head (op : Byte) : List Byte := [op, h, sel, mode] ++ be64 addr ++ be32 len
    decodeHost (head 0x02 ++ data ++ rest) = .ok (.writeReg addr data, rest) ∧
    decodeHost (head 0x04 ++ data ++ rest) = .ok (.crcCompute data, rest) ∧
    decodeHost (head 0x13 ++ data ++ rest) = .ok (.fileWrite h data, rest) ∧
    decodeHost (head 0x03 ++ rest) = .ok (.readReg addr len, rest) ∧
    decodeHost (head 0x10 ++ rest) = .ok (.fileOpen sel mode, rest) ∧
    decodeHost (head 0x11 ++ rest) = .ok (.fileRemove sel, rest) ∧
    decodeHost (head 0x12 ++ rest) = .ok (.fileLength h, rest) ∧
    decodeHost (head 0x14 ++ rest) = .ok (.fileRead h len, rest) ∧
    decodeHost (head 0x15 ++ rest) = .ok (.handleDup h, rest) ∧
    decodeHost (head 0x16 ++ rest) = .ok (.handleDrop h, rest) ∧
    ∀ cap hs buf lenreg : Word16,
      addr.toNat = cap.toNat * 2 ^ 48 + hs.toNat * 2 ^ 32 + buf.toNat * 2 ^ 16 + lenreg.toNat →
      decodeHost (head 0x01 ++ rest) = .ok (.linkInit cap hs buf lenreg, rest)

/-- The words of one instruction per family, written out from the spec's vectors
(95_test_vectors.md sections 1, 2 and 7). -/
def Obligations.SpecWordsDecode : Prop :=
  decode .ex .host [0x01, 0, 0, 0, 0x04, 0x00, 0x10, 0x00, 0x20, 0x00, 0x10, 0x08, 0, 0, 0, 0] =
      .ok (.linkInit 1024 0x1000 0x2000 0x1008) ∧
    decode .ex .host [0x10, 0, 0x11, 0x02, 0, 0, 0, 0, 0, 0, 0, 0, 0, 0, 0, 0] =
      .ok (.fileOpen 0x11 2) ∧
    decode .ex .request
        [0x00, 0x01, 0x2e, 0x86, 0x1d, 0xef, 0x00, 0x00, 0x40, 0x00, 0x08, 0x00, 0x00, 0x0c, 0x00,
          0x01, 0x00, 0x00, 0x00, 0x00, 0xd0, 0x00, 0x01, 0x00, 0x00, 0x00, 0x00, 0x08] =
      .ok (.readMemRequest 0xD0000100 8) ∧
    decode .ex .received
        [0x00, 0x01, 0xca, 0x5c, 0x33, 0xb3, 0x00, 0x00, 0x00, 0x00, 0x08, 0x03, 0x00, 0x04, 0x00,
          0x01, 0x00, 0x00, 0x00, 0x04] =
      .ok (.writeMemAck
        { preamble := 0x0100, crc := 0xca5c33b3, channelId := 0, status := 0, requestId := 1
          payload := [0x00, 0x00, 0x00, 0x04] }) ∧
    decode .ex .operation [0x00, 0x00, 0x02, 0x00, 0x11, 0x00, 0x00, 0x00] =
      .ok (.opOpen 2 0x11)

/-- R104, R111, R112: the bytes of the two requests, with the CRC of every byte after the crc field
at offsets 2 to 5. -/
def Obligations.RequestPacketBytes : Prop :=
  ∀ (reqId : Word16),
    let packet (cmd : Word16) (scd : List Byte) : List Byte :=
      let body := [0x00, 0x00, 0x40, 0x00] ++ be16 cmd ++ be16 (BitVec.ofNat 16 scd.length) ++
        be16 reqId ++ scd
      [0x00, 0x01] ++ be32 (crc32jam body) ++ body
    (∀ (a : Word64) (n : Word16),
      buildReadMem reqId a n = packet 0x0800 (be64 a ++ [0x00, 0x00] ++ be16 n) ∧
      (buildReadMem reqId a n).length = 28) ∧
    ∀ (a : Word64) (data : List Byte),
      buildWriteMem reqId a data = packet 0x0802 (be64 a ++ data) ∧
      (buildWriteMem reqId a data).length = 24 + data.length

/-- R113 and R67: a byte string is accepted as a packet exactly when it has the layout of R67 with a
`length` field that equals its payload's size, and then the fields are those of the layout. -/
def Obligations.ParseInvertsLayout : Prop :=
  ∀ (q : List Byte) (cmd : Word16) (a : Ack),
    parsePacket q = some (cmd, a) ↔ q = packetBytes cmd a ∧ a.payload.length < 2 ^ 16

/-- R113: `BAD_FRAME_LENGTH` when a received packet is shorter than its header or its `length` field
disagrees with its size. -/
def Obligations.BadFrameLengthRaised : Prop :=
  ∀ (s : State) (c : Instr) (op : RegOp) (task : Task) (q : List Byte),
    s.running → s.seq = .busy c (.chunk op (.decode q) task) →
    (q.length < 16 ∨ q.length ≠ 16 + (rdbe16 q 12).toNat) →
    step s = .next ({ s with rxBuf := q }.aborted task 2 5)

/-! ### CRC -/

/-- R101: the update of `CRC_ACC`, byte by byte. -/
def Obligations.CrcUpdate : Prop :=
  crc32jam [] = 0xFFFFFFFF ∧
    ∀ (bytes : List Byte) (b : Byte),
      let shift (acc : Word32) : Word32 :=
        if acc.getLsbD 0 then (acc >>> 1) ^^^ 0xEDB88320 else acc >>> 1
      crc32jam (bytes ++ [b]) =
        shift (shift (shift (shift (shift (shift (shift (shift
          (crc32jam bytes ^^^ b.setWidth 32))))))))

/-- The check values of 40_crc.md (R102, R106). -/
def Obligations.CrcCheckValues : Prop :=
  crc32jam [0x31, 0x32, 0x33, 0x34, 0x35, 0x36, 0x37, 0x38, 0x39] = 0x340BC6D9 ∧
    crc32jam [0xff] = 0x00FFFFFF ∧ crc32jam [0x00] = 0x2DFD1072 ∧
    crc32jam [0, 0, 0, 0] = 0xDEBB20E3

/-- The checker tells any two byte strings apart that differ in one byte: its register is a
bijection of the register before and injective in the byte (from R101). -/
def Obligations.CrcDetectsOneByte : Prop :=
  ∀ (pre post : List Byte) (b c : Byte), b ≠ c →
    crc32jam (pre ++ [b] ++ post) ≠ crc32jam (pre ++ [c] ++ post)

/-- R106: CRC_COMPUTE. -/
def Obligations.CrcComputeRuns : Prop :=
  ∀ (s : State) (data : List Byte), s.seq = .busy (.crcCompute data) .start →
    exec (.crcCompute data) s =
      .next ({ s with crcAcc := crc32jam data }.ended 0 0 0 (crc32jam data) [])

/-- R105: a received packet with right framing. `CMD_CRC_BAD` records a mismatch; with
`P_RX_CRC_ENFORCE` it raises `CRC_MISMATCH`; else the packet goes on to its acceptance, and
`CMD_CRC_BAD` is what the check left. That the response to `CRC_MISMATCH` carries `CMD_CRC_BAD = 1` in
byte 3 is the model's reading of R89 (30_encoding.md section 3) and R193 (60_exceptions.md section 2)
against a row of 95_test_vectors.md section 6: log entry 22. -/
def Obligations.ReceivedCrcCheck : Prop :=
  ∀ (s : State) (c : Instr) (op : RegOp) (task : Task) (q : List Byte),
    s.running → s.seq = .busy c (.chunk op (.decode q) task) →
    16 ≤ q.length → q.length = 16 + (rdbe16 q 12).toNat →
    let crc := crc32jam (slice q 6 (10 + (rdbe16 q 12).toNat))
    (crc ≠ rdbe32 q 2 → s.cfg.rxCrcEnforce = true →
      step s = .next ({ s with rxBuf := q, crcAcc := crc, cmdCrcBad := true }.aborted task 2 6)) ∧
    (crc ≠ rdbe32 q 2 → s.cfg.rxCrcEnforce = false →
      ∃ t, step s = .next t ∧ t.cmdCrcBad = true ∧ t.crcAcc = crc ∧ t.rxBuf = q) ∧
    (crc = rdbe32 q 2 →
      ∃ t, step s = .next t ∧ t.cmdCrcBad = s.cmdCrcBad ∧ t.crcAcc = crc ∧ t.rxBuf = q)

/-! ### Link establishment, numbers -/

/-- R140: LINK_INIT, with its two checks in order. -/
def Obligations.LinkInitEstablishes : Prop :=
  ∀ (s : State) (cap hs buf lenreg : Word16),
    s.seq = .busy (.linkInit cap hs buf lenreg) .start →
    ((∃ e ∈ s.handles, e.valid = true) →
      exec (.linkInit cap hs buf lenreg) s = .next (s.failed 3 14)) ∧
    ((∀ e ∈ s.handles, e.valid = false) → cap.toNat < 28 →
      exec (.linkInit cap hs buf lenreg) s = .next (s.failed 3 13)) ∧
    ((∀ e ∈ s.handles, e.valid = false) → 28 ≤ cap.toNat →
      exec (.linkInit cap hs buf lenreg) s =
        .next ({ s with
            mps := BitVec.ofNat 11 (min cap.toNat 1024), aHs := hs, aBuf := buf, aLen := lenreg
            reqId := 1, linkUp := true }.ended 0 0 0 (BitVec.ofNat 32 (min cap.toNat 1024)) []))

/-- R141: CHUNKS. -/
def Obligations.ChunksLaw : Prop :=
  ∀ (n lim : Nat), 1 ≤ lim →
    (chunks n lim).length = (n + lim - 1) / lim ∧
    (∀ (i : Nat) (c : Chunk), (chunks n lim)[i]? = some c →
      c.off = i * lim ∧ c.size = min lim (n - i * lim) ∧
      (i + 1 < (chunks n lim).length → c.size = lim) ∧
      (i + 1 = (chunks n lim).length → c.size = if n % lim = 0 then lim else n % lim)) ∧
    chunks 0 lim = [] ∧
    (∀ (data : List Byte), data.length = n →
      (chunks n lim).flatMap (fun c => slice data c.off c.size) = data) ∧
    ∀ (a : Word64) (c : Chunk), (chunkAddr a c).toNat = (a.toNat + c.off) % 2 ^ 64

/-- R23: `MWP` and `MRP`, with their ranges at `P_READ_ACK_HDR = 0`. -/
def Obligations.PayloadLimits : Prop :=
  ∀ (s : State), 28 ≤ s.mps.toNat → s.mps.toNat ≤ 1024 →
    s.mwp + 24 = s.mps.toNat ∧ s.mrp = s.mps.toNat - 16 - s.cfg.readAckHdr ∧
    (s.cfg.readAckHdr = 0 → 4 ≤ s.mwp ∧ s.mwp ≤ 1000 ∧ 12 ≤ s.mrp ∧ s.mrp ≤ 1008)

/-- The request-id successor (R142): 65535 is followed by 1, every other id by the next integer, and
no id by 0. -/
def Obligations.NextRequestId : Prop :=
  nextId 65535 = 1 ∧
    ∀ (r : Word16), r ≠ 0 → r ≠ 65535 → (nextId r).toNat = r.toNat + 1 ∧ nextId r ≠ 0

/-! ### Handshake -/

/-- SEND (R125 to R128, R111, R112): a request the block stands before is built with `REQ_ID`, with
the whole packet in `TXBUF`, and the block stands before the busy poll; on a prompt channel the packet
is then handed over in six primitives, and the block stands before RECEIVE's first poll. A write chunk
keeps the id sent (R144). -/
def Obligations.RequestsAreSent : Prop :=
  ∀ (s : State) (c : Instr) (op : RegOp) (task : Task),
    s.seq = .busy c (.chunk op .encode task) →
    let armed := match op with
      | .write a data k ks _ _ => RegOp.write a data k ks s.reqId 0
      | .read a k ks out => .read a k ks out
    let staged (packet : List Byte) : State :=
      { s with
        txBuf := packet, crcAcc := crc32jam (packet.drop 6)
        seq := .busy c (.chunk armed (.busyPoll 0) task) }
    let sends (i : Instr) (packet : List Byte) : Prop :=
      exec i s = .next (staged packet) ∧
      ∀ rest, s.running → s.answers = sendAnswers s.cfg ++ rest →
        (staged packet).reaches { staged packet with
          answers := rest
          trace := s.trace ++ s.sendEvents packet
          seq := .busy c (.chunk armed (.readyPoll 0) task) }
    (∀ (addr : Word64) (n : Word16),
      sends (.readMemRequest addr n) (buildReadMem s.reqId addr n)) ∧
    ∀ (addr : Word64) (data : List Byte),
      sends (.writeMemRequest addr data) (buildWriteMem s.reqId addr data)

/-- RECEIVE (R130, R133): from the response-ready poll, on a prompt channel, the packet `q` of at
most `MPS` bytes is taken with six primitives (five where it is empty), and the block stands before
DECODE. -/
def Obligations.PacketsAreReceived : Prop :=
  ∀ (s : State) (c : Instr) (op : RegOp) (task : Task) (k : Nat) (q : List Byte)
    (rest : List Answer), s.running →
    s.seq = .busy c (.chunk op (.readyPoll k) task) →
    q.length ≤ s.mps.toNat → s.answers = receiveAnswers s.cfg q ++ rest →
    s.reaches { s with
      seq := .busy c (.chunk op (.decode q) task)
      trace := s.trace ++ s.receiveEvents q
      answers := rest }

/-- R126, R128, R129, R133, R220: without a poll limit, and with one as long as the count of
mismatches stays below it, the busy, consumed and idle polls read again, with no sleep, as long as
the flag differs; and after any number of mismatches a read of the awaited value ends the poll, and
the block stands before what follows it: the staging, the data-ready clear, the release's last
write. -/
def Obligations.PollsWaitBelowLimit : Prop :=
  ∀ (s : State) (c : Instr) (op : RegOp) (task : Task) (k : Nat) (q : List Byte)
    (vs : List (List Byte)) (rest : List Answer), s.running →
    (s.cfg.pollLimit = none ∨ ∃ l, s.cfg.pollLimit = some l ∧ k + vs.length < l) →
    (∀ v ∈ vs, v.length = s.cfg.hsWidth) →
    let polls (phase : Nat → Phase) (addr : Word16) (target : List Byte) (next : Phase) : Prop :=
      s.seq = .busy c (.chunk op (phase k) task) → (∀ v ∈ vs, v ≠ target) →
      let reads (xs : List (List Byte)) : List Event :=
        xs.map fun v => Event.memRead addr s.cfg.hsWidth (some v)
      (s.answers = vs.map .done ++ rest →
        steps vs.length s = .next { s with
          seq := .busy c (.chunk op (phase (k + vs.length)) task)
          trace := s.trace ++ reads vs
          answers := rest }) ∧
      (s.answers = vs.map .done ++ [.done target] ++ rest →
        steps (vs.length + 1) s = .next { s with
          seq := .busy c (.chunk op next task)
          trace := s.trace ++ reads (vs ++ [target])
          answers := rest })
    polls .busyPoll (s.aHs + s.cfg.oBusy) s.cfg.vBusyClear .stage ∧
    polls .consumedPoll (s.aHs + s.cfg.oTx) s.cfg.vTxConsumed .txClear ∧
    polls (.idlePoll q) (s.aHs + s.cfg.oRx) s.cfg.vRxIdle (.rxClear q)

/-- R131, R129: without a poll limit, and with one as long as the count of mismatches stays below it,
the response-ready poll sleeps after every read that does not match and before the next read; no
sleep stands before the first read. The block then reads the response length. -/
def Obligations.ReadyPollSleeps : Prop :=
  ∀ (s : State) (c : Instr) (op : RegOp) (task : Task) (k : Nat) (vs : List (List Byte))
    (rest : List Answer), s.running →
    (s.cfg.pollLimit = none ∨ ∃ l, s.cfg.pollLimit = some l ∧ k + vs.length < l) →
    0 < s.cfg.rxPollDelay →
    s.seq = .busy c (.chunk op (.readyPoll k) task) →
    (∀ v ∈ vs, v.length = s.cfg.hsWidth ∧ v ≠ s.cfg.vRxReady) →
    s.answers = vs.map .done ++ [.done s.cfg.vRxReady] ++ rest →
    steps (2 * vs.length + 1) s = .next { s with
      seq := .busy c (.chunk op .readLength task)
      trace := s.trace ++
        vs.flatMap (fun v =>
          [Event.memRead (s.aHs + s.cfg.oRx) s.cfg.hsWidth (some v), .sleep s.cfg.rxPollDelay]) ++
        [Event.memRead (s.aHs + s.cfg.oRx) s.cfg.hsWidth (some s.cfg.vRxReady)]
      answers := rest }

/-- R129, R197: with `P_POLL_LIMIT = l`, the `l`-th mismatch of any of the four polls raises
`Timeout(POLL)` and takes the link down: that read is the last primitive of the command. That the
raise is the step after that read is the model's reading (DEDUCED, log entry 21). -/
def Obligations.PollLimitTimesOut : Prop :=
  ∀ (s : State) (c : Instr) (op : RegOp) (task : Task) (k l : Nat) (q v : List Byte)
    (rest : List Answer), s.running → s.cfg.pollLimit = some l → l ≤ k + 1 →
    v.length = s.cfg.hsWidth → s.answers = .done v :: rest →
    let expires (phase : Phase) (addr : Word16) : Prop :=
      s.seq = .busy c (.chunk op phase task) →
      steps 2 s = .next ({ s with
        linkUp := false
        trace := s.trace ++ [Event.memRead addr s.cfg.hsWidth (some v)]
        answers := rest }.aborted task 4 1)
    (v ≠ s.cfg.vBusyClear → expires (.busyPoll k) (s.aHs + s.cfg.oBusy)) ∧
    (v ≠ s.cfg.vTxConsumed → expires (.consumedPoll k) (s.aHs + s.cfg.oTx)) ∧
    (v ≠ s.cfg.vRxReady → expires (.readyPoll k) (s.aHs + s.cfg.oRx)) ∧
    (v ≠ s.cfg.vRxIdle → expires (.idlePoll q k) (s.aHs + s.cfg.oRx))

/-- R132: a declared length above `MPS` raises `RESPONSE_TOO_LONG` at once; nothing more is read or
written. A length of at most `MPS` is read in one primitive, none where it is 0. That the raise is the
step after the length read is the model's reading (DEDUCED, log entry 21). -/
def Obligations.ResponseLengthChecked : Prop :=
  ∀ (s : State) (c : Instr) (op : RegOp) (task : Task) (m : Nat) (rest : List Answer), s.running →
    s.seq = .busy c (.chunk op .readLength task) → m < 256 ^ s.cfg.lenWidth →
    s.answers = .done (enc s.cfg.lenOrder s.cfg.lenWidth m) :: rest →
    let read : State := { s with
      trace := s.trace ++
        [Event.memRead s.aLen s.cfg.lenWidth (some (enc s.cfg.lenOrder s.cfg.lenWidth m))]
      answers := rest }
    (s.mps.toNat < m → steps 2 s = .next (read.aborted task 2 4)) ∧
    (m ≤ s.mps.toNat →
      step s = .next { read with
        seq := .busy c (.chunk op (if m = 0 then .rxConsumed [] else .readBuffer m) task) })

/-- R199, R49: a `MemWrite` that returns `fail` raises `ChannelIO(WRITE_FAILED)`, a `MemRead` that
returns `fail` or another number of bytes `ChannelIO(READ_FAILED)`, at once, with no further
primitive. `LINK_UP` is not written. That the raise is the step after the primitive (log entry 21), and
that a read of another length stands in the trace as failed (log entry 19), are the model's readings
(DEDUCED). -/
def Obligations.FailedPrimitiveRaises : Prop :=
  ∀ (s : State) (c : Instr) (op : RegOp) (phase : Phase) (task : Task) (rest : List Answer),
    s.running → s.seq = .busy c (.chunk op phase task) →
    (∀ (addr : Word16) (bytes : List Byte), s.pending = some (Primitive.memWrite addr bytes) →
      s.answers = .fail :: rest →
      steps 2 s = .next ({ s with
        trace := s.trace ++ [Event.memWrite addr bytes false], answers := rest }.aborted task 1 1)) ∧
    (∀ (addr : Word16) (n : Nat) (a : Answer), s.pending = some (Primitive.memRead addr n) →
      s.answers = a :: rest → (a = .fail ∨ ∃ bytes, a = .done bytes ∧ bytes.length ≠ n) →
      steps 2 s = .next ({ s with
        trace := s.trace ++ [Event.memRead addr n none], answers := rest }.aborted task 1 2))

/-! ### Register link -/

/-- WRITE_REG (R146, with R143 to R145). Without the link it raises `LINK_DOWN`; with it, on a prompt
channel that acknowledges every chunk under its id, it writes chunk after chunk. -/
def Obligations.WriteRegRuns : Prop :=
  ∀ (s : State) (addr : Word64) (data : List Byte) (acks : List Ack) (rest : List Answer),
    (s.seq = .busy (.writeReg addr data) .start → s.linkUp = false →
      exec (.writeReg addr data) s = .next (s.failed 3 10)) ∧
    (s.ready (.writeReg addr data) → s.plays [.write addr data acks] rest →
      ∃ t, exec (.writeReg addr data) s = .next t ∧
        t.reaches ((s.played [.write addr data acks] rest).ended 0 0 0
          (BitVec.ofNat 32 data.length) []))

/-- READ_REG (R151, with R149, R150). -/
def Obligations.ReadRegRuns : Prop :=
  ∀ (s : State) (addr : Word64) (len : Word32) (acks : List Ack) (rest : List Answer),
    (s.seq = .busy (.readReg addr len) .start → s.linkUp = false →
      exec (.readReg addr len) s = .next (s.failed 3 10)) ∧
    (s.ready (.readReg addr len) → s.plays [.read addr len.toNat acks] rest →
      ∃ t, exec (.readReg addr len) s = .next t ∧
        t.reaches ((s.played [.read addr len.toNat acks] rest).ended 0 0 0 len (payloads acks)))

/-- R145: ACCEPT_WRITE_ACK, its three checks in order, then `REQ_ID`; the chunk that follows is sent,
or the register write is over. -/
def Obligations.WriteAckAccepted : Prop :=
  ∀ (s : State) (c : Instr) (addr : Word64) (data : List Byte) (cur : Chunk) (rest : List Chunk)
    (id : Word16) (p : Nat) (q : List Byte) (task : Task) (a : Ack),
    s.seq = .busy c (.chunk (.write addr data cur rest id p) (.decode q) task) →
    (s.crcAccepted 0x0801 a = true →
      exec (.readMemAck a) s = .next ((s.decoded 0x0801 a).aborted task 2 1)) ∧
    (∀ cmd : Word16, s.crcAccepted cmd a = true →
      exec (.undefinedCommandId cmd a) s = .next ((s.decoded cmd a).aborted task 2 1)) ∧
    (s.crcAccepted 0x0803 a = true → a.status ≠ s.cfg.statusSuccess →
      exec (.writeMemAck a) s = .next ((s.decoded 0x0803 a).aborted task 2 2)) ∧
    (s.crcAccepted 0x0803 a = true → a.status = s.cfg.statusSuccess → a.requestId ≠ id →
      exec (.writeMemAck a) s = .next ((s.decoded 0x0803 a).aborted task 2 3)) ∧
    (s.crcAccepted 0x0803 a = true → a.status = s.cfg.statusSuccess → a.requestId = id →
      exec (.writeMemAck a) s = .next { s.decoded 0x0803 a with
        reqId := nextId s.reqId
        seq := .busy c (match rest with
          | [] => .opDone [] task
          | k :: ks => .chunk (.write addr data k ks id p) .encode task) })

/-- R150: the acceptance of a read acknowledgment, its checks in order; a Pending ack is no answer to
a read (R196). -/
def Obligations.ReadAckAccepted : Prop :=
  ∀ (s : State) (c : Instr) (addr : Word64) (cur : Chunk) (rest : List Chunk) (out q : List Byte)
    (task : Task) (a : Ack),
    s.seq = .busy c (.chunk (.read addr cur rest out) (.decode q) task) →
    (s.crcAccepted 0x0803 a = true →
      exec (.writeMemAck a) s = .next ((s.decoded 0x0803 a).aborted task 2 1)) ∧
    (s.crcAccepted 0x0805 a = true →
      exec (.pendingAck a) s = .next ((s.decoded 0x0805 a).aborted task 2 1)) ∧
    (∀ cmd : Word16, s.crcAccepted cmd a = true →
      exec (.undefinedCommandId cmd a) s = .next ((s.decoded cmd a).aborted task 2 1)) ∧
    (s.crcAccepted 0x0801 a = true → a.status ≠ s.cfg.statusSuccess →
      exec (.readMemAck a) s = .next ((s.decoded 0x0801 a).aborted task 2 2)) ∧
    (s.crcAccepted 0x0801 a = true → a.status = s.cfg.statusSuccess →
      a.payload.length ≠ cur.size →
      exec (.readMemAck a) s = .next ((s.decoded 0x0801 a).aborted task 2 8)) ∧
    (s.crcAccepted 0x0801 a = true → a.status = s.cfg.statusSuccess →
      a.payload.length = cur.size →
      exec (.readMemAck a) s = .next { s.decoded 0x0801 a with
        seq := .busy c (match rest with
          | [] => .opDone (out ++ a.payload) task
          | k :: ks => .chunk (.read addr k ks (out ++ a.payload)) .encode task) })

/-- R115, R144: a Pending ack for a write. Shorter than 4 payload bytes it raises `SHORT_PENDING`;
past the limit `Timeout(PENDING)` with the link down; else the block stands before a sleep of the
retry-after of payload bytes 2 and 3, and after it receives again without sending. -/
def Obligations.PendingAckSleeps : Prop :=
  ∀ (s : State) (c : Instr) (addr : Word64) (data : List Byte) (cur : Chunk) (rest : List Chunk)
    (id : Word16) (p : Nat) (q : List Byte) (task : Task) (a : Ack),
    s.seq = .busy c (.chunk (.write addr data cur rest id p) (.decode q) task) →
    s.crcAccepted 0x0805 a = true →
    (a.payload.length < 4 →
      exec (.pendingAck a) s = .next ((s.decoded 0x0805 a).aborted task 2 7)) ∧
    (∀ l, 4 ≤ a.payload.length → s.cfg.pendingLimit = some l → l < p + 1 →
      exec (.pendingAck a) s =
        .next ({ s.decoded 0x0805 a with linkUp := false }.aborted task 4 2)) ∧
    (4 ≤ a.payload.length →
      (s.cfg.pendingLimit = none ∨ ∃ l, s.cfg.pendingLimit = some l ∧ p + 1 ≤ l) →
      ∃ t, exec (.pendingAck a) s = .next t ∧ t.trace = s.trace ∧ (s.running →
        step t = .next { s.decoded 0x0805 a with
          trace := s.trace ++ [.sleep (rdbe16 a.payload 2).toNat]
          seq := .busy c (.chunk (.write addr data cur rest id (p + 1)) (.readyPoll 0) task) }))

/-- R73: a received packet with no acknowledgment's command id is refused, whatever was sent. -/
def Obligations.UndefinedCommandIdRefused : Prop :=
  ∀ (s : State) (c : Instr) (op : RegOp) (q : List Byte) (task : Task) (cmd : Word16) (a : Ack),
    s.running → s.seq = .busy c (.chunk op (.decode q) task) →
    cmd ≠ 0x0801 → cmd ≠ 0x0803 → cmd ≠ 0x0805 → a.payload.length < 2 ^ 16 →
    q = packetBytes cmd a → s.crcAccepted cmd a = true →
    step s = exec (.undefinedCommandId cmd a) s ∧
    exec (.undefinedCommandId cmd a) s = .next ((s.decoded cmd a).aborted task 2 1)

/-- The OperationExecute values (R82, R83, R160): the block that stands before EXEC writes the 8
bytes of `op | mode << 16 | sel << 32` to 0xD0003000, in one or two WriteMem exchanges, and the
command goes on after it. -/
def Obligations.OperationExecuteWrites : Prop :=
  ∀ (s : State) (c : Instr) (v : Word64) (task : Task) (mode : Word16) (sel : Word32)
    (acks : List Ack) (rest : List Answer), s.running →
    28 ≤ s.mps.toNat → s.mps.toNat ≤ 1024 → s.seq = .busy c (.operation v task) →
    let writes (i : Instr) (op : Word16) : Prop :=
      s.plays [execAction s.cfg op mode sel acks] rest →
      ∃ t, exec i s = .next t ∧
        t.reaches { s.played [execAction s.cfg op mode sel acks] rest with
          seq := .busy c (.opDone [] task) }
    writes (.opOpen mode sel) s.cfg.opOpen ∧ writes (.opClose mode sel) s.cfg.opClose ∧
    writes (.opRead mode sel) s.cfg.opRead ∧ writes (.opWrite mode sel) s.cfg.opWrite ∧
    writes (.opDelete mode sel) s.cfg.opDelete

/-- Model's choice (log entry 7): a wire packet or an OperationExecute value has an effect only at
its position of the sequencer, and changes nothing at any other. -/
def Obligations.WireInstructionsElsewhere : Prop :=
  ∀ (s : State) (i : Instr),
    (i.port = .request → (∀ c op task, s.seq ≠ .busy c (.chunk op .encode task)) →
      exec i s = .next s) ∧
    (i.port = .received → (∀ c op q task, s.seq ≠ .busy c (.chunk op (.decode q) task)) →
      exec i s = .next s) ∧
    (i.port = .operation → (∀ c v task, s.seq ≠ .busy c (.operation v task)) →
      exec i s = .next s)

/-! ### File store -/

/-- R162: CHECK_HANDLE, in order, before any primitive; where no check fails the command is in
progress, with nothing issued and nothing raised. -/
def Obligations.HandleChecks : Prop :=
  ∀ (s : State) (h : Byte) (i : Instr) (need : Option (BitVec 2)), s.seq = .busy i .start →
    ((i = .fileLength h ∧ need = none) ∨ (∃ data, i = .fileWrite h data ∧ need = some 2) ∨
      ∃ n, i = .fileRead h n ∧ need = some 1) →
    let entry (e : Handle) : Prop :=
      h.toNat < s.cfg.numHandles ∧ s.handles[h.toNat]? = some e ∧ e.valid = true
    (s.linkUp = false → exec i s = .next (s.failed 3 10)) ∧
    (s.linkUp = true → (∀ e, ¬ entry e) → exec i s = .next (s.failed 3 8)) ∧
    (∀ e, s.linkUp = true → entry e → e.stale = true → exec i s = .next (s.failed 3 9)) ∧
    (∀ e m, s.linkUp = true → entry e → e.stale = false → need = some m → e.mode ≠ m →
      exec i s = .next (s.failed 3 4)) ∧
    (∀ e, s.linkUp = true → entry e → e.stale = false → (need = none ∨ need = some e.mode) →
      ∃ pos, pos ≠ .start ∧ exec i s = .next { s with seq := .busy i pos })

/-- FILE_OPEN's checks (R164, R194), in order, before any primitive. -/
def Obligations.FileOpenChecks : Prop :=
  ∀ (s : State) (sel mode : Byte), s.seq = .busy (.fileOpen sel mode) .start →
    (s.linkUp = false → exec (.fileOpen sel mode) s = .next (s.failed 3 10)) ∧
    (s.linkUp = true → sel ∉ s.cfg.knownSelectors →
      exec (.fileOpen sel mode) s = .next (s.failed 3 5)) ∧
    (s.linkUp = true → sel ∈ s.cfg.knownSelectors → mode ≠ 1 → mode ≠ 2 →
      exec (.fileOpen sel mode) s = .next (s.failed 3 11)) ∧
    (s.linkUp = true → sel ∈ s.cfg.knownSelectors → (mode = 1 ∨ mode = 2) →
      (∀ e ∈ s.handles, e.valid = true) →
      exec (.fileOpen sel mode) s = .next (s.failed 3 12))

/-- FILE_OPEN (R164, R171) on a prompt channel: the first snapshot, every live handle marked stale,
the Close of the reported selector if a file is open, the Open, the second snapshot; then the
lowest free entry, or `OPEN_NOT_CONFIRMED`. The reported selector is cut to the 32-bit field
(model's choice, log entry 11). -/
def Obligations.FileOpenRuns : Prop :=
  ∀ (s : State) (sel mode : Byte) (h : Nat) (a1 a2 a3 a4 : List Ack) (rest : List Answer),
    s.ready (.fileOpen sel mode) → sel ∈ s.cfg.knownSelectors → (mode = 1 ∨ mode = 2) →
    (∃ e, s.handles[h]? = some e ∧ e.valid = false) →
    (∀ j, j < h → ∃ e, s.handles[j]? = some e ∧ e.valid = true) →
    let status1 := dec s.cfg.regOrder (payloads a1)
    let status2 := dec s.cfg.regOrder (payloads a4)
    let close := execAction s.cfg s.cfg.opClose 0
      (BitVec.ofNat 32 (status1 / 2 ^ s.cfg.stSelLsb % 2 ^ s.cfg.stSelWidth)) a2
    let xs := [.read 0xD0000100 8 a1] ++ (if status1.testBit s.cfg.stOpenBit then [close] else []) ++
      [execAction s.cfg s.cfg.opOpen (mode.setWidth 16) (sel.setWidth 32) a3,
        .read 0xD0000100 8 a4]
    let stale := s.handles.map fun e => if e.valid then { e with stale := true } else e
    s.plays xs rest →
    ∃ t, exec (.fileOpen sel mode) s = .next t ∧
      (status2.testBit s.cfg.stOpenBit = true →
        t.reaches ({ s.played xs rest with
          handles := stale.set h
            { valid := true, stale := false, sel := sel, mode := mode.setWidth 2, refcnt := 1 } }.ended
          0 0 (BitVec.ofNat 8 h) 0 [])) ∧
      (status2.testBit s.cfg.stOpenBit = false →
        t.reaches ({ s.played xs rest with handles := stale }.failed 3 7))

/-- R165: FILE_REMOVE. -/
def Obligations.FileRemoveRuns : Prop :=
  ∀ (s : State) (sel : Byte) (acks : List Ack) (rest : List Answer),
    let xs := [execAction s.cfg s.cfg.opDelete 0 (sel.setWidth 32) acks]
    s.seq = .busy (.fileRemove sel) .start →
    (s.linkUp = false → exec (.fileRemove sel) s = .next (s.failed 3 10)) ∧
    (s.linkUp = true → sel ∉ s.cfg.knownSelectors →
      exec (.fileRemove sel) s = .next (s.failed 3 5)) ∧
    (s.ready (.fileRemove sel) → sel ∈ s.cfg.knownSelectors → s.plays xs rest →
      ∃ t, exec (.fileRemove sel) s = .next t ∧ t.reaches ((s.played xs rest).ended 0 0 0 0 []))

/-- R166, R51: FILE_LENGTH of a live handle. -/
def Obligations.FileLengthRuns : Prop :=
  ∀ (s : State) (h : Byte) (e : Handle) (acks : List Ack) (rest : List Answer),
    s.ready (.fileLength h) → h.toNat < s.cfg.numHandles → s.handles[h.toNat]? = some e →
    e.valid = true → e.stale = false →
    let xs := [.read (0xD0005300 + 4 * e.sel.setWidth 64) 4 acks]
    s.plays xs rest →
    ∃ t, exec (.fileLength h) s = .next t ∧
      t.reaches ((s.played xs rest).ended 0 0 0
        (BitVec.ofNat 32 (dec s.cfg.regOrder (payloads acks))) [])

/-- FILE_WRITE (R167, R173) on an empty file that may hold the data: the size, the maximum size, then
for each chunk its byte count, its bytes, the Write, and a progress event. -/
def Obligations.FileWriteRuns : Prop :=
  ∀ (s : State) (h : Byte) (data : List Byte) (e : Handle) (a1 a2 : List Ack)
    (a3 : List (List Ack × List Ack × List Ack)) (rest : List Answer),
    s.ready (.fileWrite h data) → h.toNat < s.cfg.numHandles → s.handles[h.toNat]? = some e →
    e.valid = true → e.stale = false → e.mode = 2 →
    dec s.cfg.regOrder (payloads a1) = 0 →
    data.length ≤ dec s.cfg.regOrder (payloads a2) →
    let pieces := chunks data.length (min 0x400 (s.mps.toNat - 24))
    a3.length = pieces.length →
    let xs := [.read (0xD0005300 + 4 * e.sel.setWidth 64) 4 a1, .read 0xD0005210 4 a2] ++
      fileWriteActions s.cfg e.sel data pieces a3
    s.plays xs rest →
    ∃ t, exec (.fileWrite h data) s = .next t ∧
      t.reaches ((s.played xs rest).ended 0 0 0 (BitVec.ofNat 32 data.length) [])

/-- FILE_WRITE's refusals (R167): `FILE_EXISTS` after the size read, `TOO_LARGE` after the
maximum-size read, with nothing written. -/
def Obligations.FileWriteRefused : Prop :=
  ∀ (s : State) (h : Byte) (data : List Byte) (e : Handle) (a1 a2 : List Ack) (rest : List Answer),
    s.ready (.fileWrite h data) → h.toNat < s.cfg.numHandles → s.handles[h.toNat]? = some e →
    e.valid = true → e.stale = false → e.mode = 2 →
    let size := dec s.cfg.regOrder (payloads a1)
    let readSize := .read (0xD0005300 + 4 * e.sel.setWidth 64) 4 a1
    let readMax := .read 0xD0005210 4 a2
    ∃ t, exec (.fileWrite h data) s = .next t ∧
      (size ≠ 0 → s.plays [readSize] rest →
        t.reaches ((s.played [readSize] rest).failed 3 1)) ∧
      (size = 0 → dec s.cfg.regOrder (payloads a2) < data.length →
        s.plays [readSize, readMax] rest →
        t.reaches ((s.played [readSize, readMax] rest).failed 3 2))

/-- FILE_READ (R168): the size `n`, then for each chunk its byte count, the Read, and the bytes of
the buffer. -/
def Obligations.FileReadRuns : Prop :=
  ∀ (s : State) (h : Byte) (maxLen : Word32) (e : Handle) (a1 : List Ack)
    (a2 : List (List Ack × List Ack × List Ack)) (rest : List Answer),
    s.ready (.fileRead h maxLen) → h.toNat < s.cfg.numHandles → s.handles[h.toNat]? = some e →
    e.valid = true → e.stale = false → e.mode = 1 →
    let n := dec s.cfg.regOrder (payloads a1)
    n ≠ 0 → n ≤ maxLen.toNat →
    let pieces := chunks n (min 0x400 (s.mps.toNat - 24))
    a2.length = pieces.length →
    let xs := [.read (0xD0005300 + 4 * e.sel.setWidth 64) 4 a1] ++
      fileReadActions s.cfg e.sel pieces a2
    s.plays xs rest →
    ∃ t, exec (.fileRead h maxLen) s = .next t ∧
      t.reaches ((s.played xs rest).ended 0 0 0 (BitVec.ofNat 32 n)
        (a2.flatMap fun x => payloads x.2.2))

/-- FILE_READ's refusals (R168): `FILE_EMPTY` and `BUFFER_TOO_SMALL` after the size read. -/
def Obligations.FileReadRefused : Prop :=
  ∀ (s : State) (h : Byte) (maxLen : Word32) (e : Handle) (a1 : List Ack) (rest : List Answer),
    s.ready (.fileRead h maxLen) → h.toNat < s.cfg.numHandles → s.handles[h.toNat]? = some e →
    e.valid = true → e.stale = false → e.mode = 1 →
    let n := dec s.cfg.regOrder (payloads a1)
    let xs := [.read (0xD0005300 + 4 * e.sel.setWidth 64) 4 a1]
    s.plays xs rest →
    ∃ t, exec (.fileRead h maxLen) s = .next t ∧
      (n = 0 → t.reaches ((s.played xs rest).failed 3 6)) ∧
      (maxLen.toNat < n → t.reaches ((s.played xs rest).failed 3 3))

/-- R169: HANDLE_DUP, a stale handle included. -/
def Obligations.HandleDupCounts : Prop :=
  ∀ (s : State) (h : Byte), s.seq = .busy (.handleDup h) .start →
    let entry (e : Handle) : Prop :=
      h.toNat < s.cfg.numHandles ∧ s.handles[h.toNat]? = some e ∧ e.valid = true
    ((∀ e, ¬ entry e) → exec (.handleDup h) s = .next (s.failed 3 8)) ∧
    (∀ e, entry e → e.refcnt = 65535 → exec (.handleDup h) s = .next (s.failed 3 15)) ∧
    (∀ e, entry e → e.refcnt ≠ 65535 →
      exec (.handleDup h) s = .next ({ s with
        handles := s.handles.set h.toNat { e with refcnt := e.refcnt + 1 } }.ended 0 0 h 0 []))

/-- HANDLE_DROP (R170, R171): a bad handle; a drop that leaves copies (a valid entry has a count of at
least 1, R29); the last drop with the link down; the last drop with the link up, which marks the
entries of the selector stale and issues the Close, here on a prompt channel. -/
def Obligations.HandleDropRuns : Prop :=
  ∀ (s : State) (h : Byte), s.seq = .busy (.handleDrop h) .start →
    let entry (e : Handle) : Prop :=
      h.toNat < s.cfg.numHandles ∧ s.handles[h.toNat]? = some e ∧ e.valid = true
    let freed (e : Handle) : List Handle :=
      s.handles.set h.toNat { e with refcnt := 0, valid := false }
    ((∀ e, ¬ entry e) → exec (.handleDrop h) s = .next (s.failed 3 8)) ∧
    (∀ e, entry e → e.refcnt ≠ 0 → e.refcnt ≠ 1 →
      exec (.handleDrop h) s = .next ({ s with
        handles := s.handles.set h.toNat { e with refcnt := e.refcnt - 1 } }.ended 0 0 0 0 [])) ∧
    (∀ e, entry e → e.refcnt = 1 → s.linkUp = false →
      exec (.handleDrop h) s = .next ({ s with handles := freed e }.ended 0 0 0 0 [])) ∧
    (∀ e acks rest, entry e → e.refcnt = 1 → s.ready (.handleDrop h) →
      let xs := [execAction s.cfg s.cfg.opClose 0 (e.sel.setWidth 32) acks]
      s.plays xs rest →
      ∃ t, exec (.handleDrop h) s = .next t ∧ t.reaches ({ s.played xs rest with
        handles := (freed e).map fun (x : Handle) =>
          if x.valid && x.sel == e.sel then { x with stale := true } else x }.ended 0 0 0 0 []))

/-- R170, R195: whatever the channel answers, a HANDLE_DROP of a valid handle ends OK if it ends: its
first line, and every step within its Close, either ends the command with an OK response or leads to a
position within its Close. -/
def Obligations.HandleDropEndsOk : Prop :=
  ∀ (s t : State) (h : Byte),
    let closes (c : Instr) : Prop :=
      (t.seq = .idle ∧ t.respKind = 0 ∧ t.respSub = 0) ∨
        ∃ pos, t.seq = .busy c pos ∧ pos.task? = some .dropClose
    ((∃ e, h.toNat < s.cfg.numHandles ∧ s.handles[h.toNat]? = some e ∧ e.valid = true) →
      s.seq = .busy (.handleDrop h) .start → exec (.handleDrop h) s = .next t →
      closes (.handleDrop h)) ∧
    (∀ (c : Instr) (pos : Pos), s.resetLine = false → s.seq = .busy c pos →
      pos.task? = some .dropClose → step s = .next t → closes c)

/-! ### Reset, the host, the step -/

/-- R90: an illegal opcode is answered with `ILLEGAL_COMMAND(UNKNOWN_OPCODE)` and nothing else
changes. `CMD_CRC_BAD` staying too is the model's reading of "no other state" (log entry 8). -/
def Obligations.IllegalOpcodeAnswered : Prop :=
  (∀ bytes : List Byte, 16 ≤ bytes.length →
    byteAt bytes 0 ∉ [0x01, 0x02, 0x03, 0x04, 0x10, 0x11, 0x12, 0x13, 0x14, 0x15, 0x16] →
    decodeHost bytes = .ok (.illegalHostOpcode (byteAt bytes 0), bytes.drop 16)) ∧
  ∀ (s : State) (op : Byte), s.seq = .idle →
    exec (.illegalHostOpcode op) s = .next (s.failed 5 1)

/-- R211: what each command does between reset and the first LINK_INIT that succeeds. -/
def Obligations.CommandsBeforeLinkInit : Prop :=
  ∀ (s : State), s.linkUp = false → (∀ e ∈ s.handles, e.valid = false) →
    let runs (i : Instr) := exec i { s with seq := .busy i .start }
    (∀ cap hs buf lenreg : Word16, ∃ t f, runs (.linkInit cap hs buf lenreg) = .next t ∧
      t.trace = s.trace ++ [.response f] ∧ (28 ≤ cap.toNat → t.respKind = 0 ∧ t.linkUp = true)) ∧
    (∀ data, ∃ t f, runs (.crcCompute data) = .next t ∧ t.trace = s.trace ++ [.response f] ∧
      t.respKind = 0 ∧ t.respValue = crc32jam data) ∧
    (∀ h, runs (.handleDup h) = .next (s.failed 3 8) ∧
      runs (.handleDrop h) = .next (s.failed 3 8)) ∧
    (∀ addr data, runs (.writeReg addr data) = .next (s.failed 3 10)) ∧
    (∀ addr len, runs (.readReg addr len) = .next (s.failed 3 10)) ∧
    (∀ sel mode, runs (.fileOpen sel mode) = .next (s.failed 3 10)) ∧
    (∀ sel, runs (.fileRemove sel) = .next (s.failed 3 10)) ∧
    (∀ h, runs (.fileLength h) = .next (s.failed 3 10)) ∧
    (∀ h data, runs (.fileWrite h data) = .next (s.failed 3 10)) ∧
    ∀ h maxLen, runs (.fileRead h maxLen) = .next (s.failed 3 10)

/-- R210, R37: reset, at any time, sets every element for which R37 gives a value, and adds nothing
to the trace; the block then waits for a host command. -/
def Obligations.ResetTakesEffect : Prop :=
  ∀ (s : State), configOk s.cfg = true → s.resetLine = true →
    ∃ t, step s = .next t ∧ t.linkUp = false ∧ t.cmdCrcBad = false ∧
      t.handles.length = s.cfg.numHandles ∧ (∀ e ∈ t.handles, e.valid = false) ∧
      t.seq = .idle ∧ t.respKind = 0 ∧ t.trace = s.trace ∧
      step { t with hostIn := [] } = .next { t with hostIn := [] }

/-- R8, and the last constraint of R83: a configuration that breaks one is refused, at every state. -/
def Obligations.BadConfigurationRefused : Prop :=
  ∀ (s : State),
    (s.cfg.vBusyClear.length ≠ s.cfg.hsWidth ∨ s.cfg.vTxReady.length ≠ s.cfg.hsWidth ∨
      s.cfg.vTxConsumed.length ≠ s.cfg.hsWidth ∨ s.cfg.vTxClear.length ≠ s.cfg.hsWidth ∨
      s.cfg.vRxReady.length ≠ s.cfg.hsWidth ∨ s.cfg.vRxConsumed.length ≠ s.cfg.hsWidth ∨
      s.cfg.vRxIdle.length ≠ s.cfg.hsWidth ∨ s.cfg.vRxClear.length ≠ s.cfg.hsWidth ∨
      s.cfg.vTxConsumed = s.cfg.vTxReady ∨ s.cfg.vRxIdle = s.cfg.vRxConsumed ∨
      s.cfg.vRxReady = s.cfg.vRxIdle ∨ 64 < s.cfg.stSelLsb + s.cfg.stSelWidth ∨
      s.cfg.stSelWidth < 8 ∨ s.cfg.stOpenBit = s.cfg.stWrBit ∨ s.cfg.stOpenBit = s.cfg.stRdBit ∨
      s.cfg.stWrBit = s.cfg.stRdBit ∨
      (∃ b ∈ [s.cfg.stOpenBit, s.cfg.stWrBit, s.cfg.stRdBit],
        s.cfg.stSelLsb ≤ b ∧ b < s.cfg.stSelLsb + s.cfg.stSelWidth) ∨
      s.cfg.lenWidth < 2 ∨ 8 < s.cfg.lenWidth ∨
      s.cfg.opOpen = s.cfg.opClose ∨ s.cfg.opOpen = s.cfg.opRead ∨ s.cfg.opOpen = s.cfg.opWrite ∨
      s.cfg.opOpen = s.cfg.opDelete ∨ s.cfg.opClose = s.cfg.opRead ∨
      s.cfg.opClose = s.cfg.opWrite ∨ s.cfg.opClose = s.cfg.opDelete ∨
      s.cfg.opRead = s.cfg.opWrite ∨ s.cfg.opRead = s.cfg.opDelete ∨
      s.cfg.opWrite = s.cfg.opDelete) →
    step s = .refused .badConfiguration

/-- With a legal configuration no state stops the block: every step answers a next state (R190:
there are no traps; every error is a response). -/
def Obligations.LegalConfigurationNeverStops : Prop :=
  ∀ (s : State), configOk s.cfg = true → ∃ t, step s = .next t

/-- A step runs the decoded instruction: a host command taken from the front of the host's stream,
which an IDLE block accepts; the command accepted, at its first line; the request of the chunk at
hand, the received packet, the OperationExecute value. -/
def Obligations.StepRunsDecoded : Prop :=
  ∀ (s : State), s.running →
    (∀ i rest, s.seq = .idle → decodeHost s.hostIn = .ok (i, rest) →
      step s = exec i { s with hostIn := rest }) ∧
    (∀ i, s.seq = .busy i .start → step s = exec i s) ∧
    (∀ c addr data k ks id p task,
      s.seq = .busy c (.chunk (.write addr data k ks id p) .encode task) →
      step s = exec (.writeMemRequest (addr + BitVec.ofNat 64 k.off) (slice data k.off k.size)) s) ∧
    (∀ c addr k ks out task, s.seq = .busy c (.chunk (.read addr k ks out) .encode task) →
      step s = exec (.readMemRequest (addr + BitVec.ofNat 64 k.off) (BitVec.ofNat 16 k.size)) s) ∧
    (∀ c op q task i, s.seq = .busy c (.chunk op (.decode q) task) →
      decode s.cfg .received q = .ok i → step s = exec i s) ∧
    ∀ c v task i, s.seq = .busy c (.operation v task) →
      decode s.cfg .operation (enc s.cfg.regOrder 8 v.toNat) = .ok i → step s = exec i s

/-- R205: while the block is BUSY a command is held: executing it, unless it is the command accepted
and not yet begun, changes nothing (log entry 17), and a step that is no reset takes no byte from the
host's stream. A stream holds no complete frame exactly when it has fewer than the 16 bytes of a header,
or fewer than 16 bytes and the `len` data bytes of an opcode that carries data (R91); an IDLE block
then waits (the model's choice, log entry 4). -/
def Obligations.CommandsHeldWhileBusy : Prop :=
  ∀ (s : State),
    (∀ (i : Instr) (c : Instr) (pos : Pos), s.seq = .busy c pos → i.port = .host →
      (i ≠ c ∨ pos ≠ .start) → exec i s = .next s) ∧
    (∀ (c : Instr) (pos : Pos) (t : State), s.resetLine = false → s.seq = .busy c pos →
      step s = .next t → t.hostIn = s.hostIn) ∧
    (∀ (bytes : List Byte) (e : DecodeError), decodeHost bytes = .error e ↔
      e = .incomplete ∧ (bytes.length < 16 ∨ (byteAt bytes 0 ∈ [0x02, 0x04, 0x13] ∧
        bytes.length < 16 + (rdbe32 bytes 12).toNat))) ∧
    (s.running → s.seq = .idle → decodeHost s.hostIn = .error .incomplete → step s = .next s)

/-- The sequencer (R33, R27): an IDLE block accepts a command with `CMD_CRC_BAD = 0`, and each step of
a BUSY block advances the position of the same command by one channel primitive, one sleep or one
internal computation, with at most one output, or ends the command. No step of a host command that is
not an illegal opcode leaves the position as it is: that such a command is the one of a BUSY block,
`Inv` and R90 give. What one internal computation is, is the model's choice (log entry 5). -/
def Obligations.SequencerAdvances : Prop :=
  ∀ (s : State),
    (∀ i, i.port = .host → (∀ op, i ≠ .illegalHostOpcode op) → s.seq = .idle →
      exec i s = .next { s with cmdCrcBad := false, seq := .busy i .start }) ∧
    (∀ (c : Instr) (pos : Pos) (t : State), s.resetLine = false → s.seq = .busy c pos →
      step s = .next t →
      (t.seq = .idle ∨ ∃ pos', t.seq = .busy c pos') ∧
      (c.port = .host → (∀ op, c ≠ .illegalHostOpcode op) → t.seq ≠ s.seq) ∧
      (∀ p, s.pending = some p → ∃ a, t.trace = s.trace ++ [p.event (p.outcome a)] ∧
        (∀ a' rest, s.answers = a' :: rest → a = a' ∧ t.answers = rest)) ∧
      (∀ op ms k task, pos = .chunk op (.sleep ms k) task → t = { s with
        trace := s.trace ++ [.sleep ms], seq := .busy c (.chunk op (.readyPoll k) task) }) ∧
      (s.pending = none → (∀ op ms k task, pos ≠ .chunk op (.sleep ms k) task) →
        t.answers = s.answers ∧
        (t.trace = s.trace ∨ ∃ e, t.trace = s.trace ++ [e] ∧ e.isWait = false)))

/-! ### The whole machine -/

/-- `MPS` and the DeviceAddressSet are written only by LINK_INIT's first line (R22, R24), and the
parameters by nothing: by no instruction, and by no step that is no reset. -/
def Obligations.LinkParametersStay : Prop :=
  ∀ (s t : State),
    let stay : Prop := t.mps = s.mps ∧ t.aHs = s.aHs ∧ t.aBuf = s.aBuf ∧ t.aLen = s.aLen
    (∀ i, exec i s = .next t → t.cfg = s.cfg ∧
      ((∀ cap hs buf lenreg, i ≠ .linkInit cap hs buf lenreg) → stay)) ∧
    (s.resetLine = false → step s = .next t → t.cfg = s.cfg ∧
      ((∀ cap hs buf lenreg, s.seq ≠ .busy (.linkInit cap hs buf lenreg) .start) → stay))

/-- No command but FILE_OPEN, HANDLE_DUP and HANDLE_DROP writes the handle table (R30): no step of
another command, and none that accepts a command, changes it. -/
def Obligations.HandleTableWriters : Prop :=
  ∀ (s t : State), Inv s → s.resetLine = false → step s = .next t →
    (∀ pos sel mode, s.seq ≠ .busy (.fileOpen sel mode) pos) →
    (∀ pos h, s.seq ≠ .busy (.handleDup h) pos) → (∀ pos h, s.seq ≠ .busy (.handleDrop h) pos) →
    t.handles = s.handles

/-- A read leaves `REQ_ID` as it is (R148), whatever the channel answers, at every step of a READ_REG
and of a FILE_LENGTH. -/
def Obligations.ReadsKeepRequestId : Prop :=
  ∀ (s t : State) (i : Instr) (pos : Pos), Inv s → s.resetLine = false → s.seq = .busy i pos →
    ((∃ addr len, i = .readReg addr len) ∨ ∃ h, i = .fileLength h) →
    step s = .next t → t.reqId = s.reqId

/-- `LINK_UP` falls only at a Timeout (R21, R197, R199): never without a configured limit, and the
step that takes it down ends a command whose response reports a Timeout, but for HANDLE_DROP's Close,
which swallows it. -/
def Obligations.LinkFallsOnlyAtTimeout : Prop :=
  ∀ (s t : State), Inv s → s.resetLine = false → step s = .next t → s.linkUp = true →
    (s.cfg.pollLimit = none → s.cfg.pendingLimit = none → t.linkUp = true) ∧
    (t.linkUp = false → t.seq = .idle ∧
      (t.respKind = 4 ∨ ∃ c pos, s.seq = .busy c pos ∧ pos.task? = some .dropClose))

/-- R191, last sentence: every response the machine writes has a (kind, subcode) pair of the table, and the trace
only grows. -/
def Obligations.ResponsesOfTable : Prop :=
  ∀ (s t : State), step s = .next t →
    ∃ es, t.trace = s.trace ++ es ∧
      ∀ f, .response f ∈ es → (byteAt f 0, byteAt f 1) ∈ responseCodes

/-- R205: at the end of each command exactly one response, as the last entry of its trace; none
before the end, and none when a command is accepted. -/
def Obligations.OneResponsePerCommand : Prop :=
  ∀ (s t : State),
    ((∃ i, s.seq = .idle ∧ i.port = .host ∧ exec i s = .next t) ∨
      (s.seq ≠ .idle ∧ s.resetLine = false ∧ step s = .next t)) →
    ∃ es, (∀ e ∈ es, e.isResponse = false) ∧
      ((t.seq = .idle ∧ ∃ f, t.trace = s.trace ++ es ++ [.response f]) ∨
        (t.seq ≠ .idle ∧ t.trace = s.trace ++ es))

/-- R47, R48, R58, R59: every primitive of a step is at one of the five channel locations, with the
width of the location, and moves from 1 to `MPS` bytes; a packet written has at least 16. -/
def Obligations.PrimitivesInMap : Prop :=
  ∀ (s t : State), PacketInv s → step s = .next t →
    ∃ es, t.trace = s.trace ++ es ∧ ∀ e ∈ es, s.inMap e = true ∧ s.fitsMps e = true

/-- The state after reset has both invariants, with every configuration. -/
def Obligations.ResetHasInvariants : Prop :=
  Inv State.reset ∧ PacketInv State.reset ∧
    ∀ cfg : Config, Inv (State.resetWith cfg) ∧ PacketInv (State.resetWith cfg)

/-- Every step keeps the invariant: the size of the handle table, the legality of its entries, at
most one open handle (R31), a request id that is never 0 (R25), a legal `MPS` (R22), and a sequencer
whose position fits its command, with the link up past the command's first line and FILE_OPEN's
conditions at each of its positions. Before the first LINK_INIT, where R37 gives `MPS` and `REQ_ID` any
value, the two clauses hold of the reset values the model chose (DESIGN CHOICE, log entry 2). -/
def Obligations.StepKeepsInv : Prop :=
  ∀ (s t : State), Inv s → step s = .next t → Inv t

/-- Every step keeps the packet invariant: each chunk fits one packet, the packet being sent has 16
to `MPS` bytes, a received packet at most `MPS` (R79, R125, R132). That `MPS` is legal after a reset
rests on the reset value the model chose (DESIGN CHOICE, log entry 2; R37 gives any value). -/
def Obligations.StepKeepsPacketInv : Prop :=
  ∀ (s t : State), PacketInv s → step s = .next t → PacketInv t

end Statements
end

