-- ==== Sys2Proof/Laws/Bytes.lean ====
section
/-! SUPPORT. Byte strings: lengths and round trips of the integer encodings, slices, chunks. -/

namespace Sys2Proof

@[simp] theorem length_leBytes (n v : Nat) : (leBytes n v).length = n := by
  induction n generalizing v with
  | zero => rfl
  | succ n ih => simp [leBytes, ih]

theorem leValue_leBytes (n v : Nat) : leValue (leBytes n v) = v % 256 ^ n := by
  induction n generalizing v with
  | zero => simp [leBytes, leValue, Nat.mod_one]
  | succ n ih =>
    rw [leBytes, leValue, ih, Nat.pow_succ, Nat.mul_comm (256 ^ n), Nat.mod_mul]
    simp

@[simp] theorem length_enc (order : ByteOrder) (n v : Nat) : (enc order n v).length = n := by
  cases order <;> simp [enc]

/-- Decoding gives the value modulo the width. -/
theorem dec_enc (order : ByteOrder) (n v : Nat) : dec order (enc order n v) = v % 256 ^ n := by
  cases order <;> simp [enc, dec, leValue_leBytes]

@[simp] theorem length_be16 (v : Word16) : (be16 v).length = 2 := length_enc _ _ _
@[simp] theorem length_be32 (v : Word32) : (be32 v).length = 4 := length_enc _ _ _
@[simp] theorem length_be64 (v : Word64) : (be64 v).length = 8 := length_enc _ _ _

@[simp] theorem length_slice (bytes : List Byte) (a n : Nat) :
    (slice bytes a n).length = min n (bytes.length - a) := by
  simp [slice]

@[simp] theorem length_coveredBytes (cmd : Word16) (a : Ack) :
    (coveredBytes cmd a).length = 10 + a.payload.length := by
  simp [coveredBytes]; omega

@[simp] theorem length_packetBytes (cmd : Word16) (a : Ack) :
    (packetBytes cmd a).length = 16 + a.payload.length := by
  simp [packetBytes]; omega

@[simp] theorem length_requestPacket (reqId cmd : Word16) (scd : List Byte) :
    (requestPacket reqId cmd scd).length = 16 + scd.length := by
  simp [requestPacket]

@[simp] theorem length_buildReadMem (reqId : Word16) (addr : Word64) (n : Word16) :
    (buildReadMem reqId addr n).length = 28 := by
  simp [buildReadMem]

@[simp] theorem length_buildWriteMem (reqId : Word16) (addr : Word64) (data : List Byte) :
    (buildWriteMem reqId addr data).length = 24 + data.length := by
  simp [buildWriteMem]; omega

/-- A packet is longer than nothing. -/
theorem packetBytes_ne_nil (cmd : Word16) (a : Ack) : packetBytes cmd a ≠ [] := by
  intro h
  have := congrArg List.length h
  simp at this

/-- A field of `n` bytes with everything after it dropped. -/
theorem slice_append_left (xs ys : List Byte) : slice (xs ++ ys) 0 xs.length = xs := by
  simp [slice]

/-- What stands after a prefix of `n` bytes. -/
theorem slice_append_right (xs ys : List Byte) (a n : Nat) :
    slice (xs ++ ys) (xs.length + a) n = slice ys a n := by
  simp [slice, List.drop_append, List.drop_eq_nil_of_le]

/-- The value of an OperationExecute write is the sum of its fields (R82). -/
theorem toNat_packOperation (op mode : Word16) (sel : Word32) :
    (packOperation op mode sel).toNat = Machine.operationValue op mode sel := by
  have ho := op.isLt
  have hm := mode.isLt
  have hs := sel.isLt
  have e1 : (mode.setWidth 64 <<< opModeShift).toNat = mode.toNat * 2 ^ 16 := by
    simp only [opModeShift, BitVec.toNat_shiftLeft, BitVec.toNat_setWidth, Nat.shiftLeft_eq]
    omega
  have e2 : (sel.setWidth 64 <<< opSelShift).toNat = sel.toNat * 2 ^ 32 := by
    simp only [opSelShift, BitVec.toNat_shiftLeft, BitVec.toNat_setWidth, Nat.shiftLeft_eq]
    omega
  have e0 : (op.setWidth 64).toNat = op.toNat := by
    simp only [BitVec.toNat_setWidth]; omega
  rw [packOperation, BitVec.toNat_or, BitVec.toNat_or, e0, e1, e2, Machine.operationValue]
  have h1 : op.toNat ||| mode.toNat * 2 ^ 16 = mode.toNat * 2 ^ 16 + op.toNat := by
    rw [Nat.or_comm, Nat.mul_comm, ← Nat.two_pow_add_eq_or_of_lt ho]
  rw [h1]
  have h2 : mode.toNat * 2 ^ 16 + op.toNat < 2 ^ 32 := by omega
  rw [Nat.or_comm, Nat.mul_comm sel.toNat, ← Nat.two_pow_add_eq_or_of_lt h2]
  omega

namespace Machine

/-! ### Chunks (43_register_link.md R141) -/

@[simp] theorem length_chunks (n lim : Nat) : (chunks n lim).length = (n + lim - 1) / lim := by
  simp [chunks]

@[simp] theorem chunks_zero (lim : Nat) : chunks 0 lim = [] := by
  simp [chunks]
  omega

/-- Each chunk starts at a multiple of the limit below `n` and is as long as the limit and `n`
allow. -/
theorem mem_chunks {n lim : Nat} {c : Chunk} (h : c ∈ chunks n lim) :
    ∃ i, c = ⟨i * lim, min lim (n - i * lim)⟩ ∧ i * lim < n := by
  obtain ⟨i, hi, rfl⟩ := List.mem_map.1 h
  refine ⟨i, rfl, ?_⟩
  have hl := List.mem_range.1 hi
  rcases Nat.eq_zero_or_pos lim with h0 | h0
  · simp [h0] at hl
  · have := (Nat.lt_div_iff_mul_lt h0).1 hl
    omega

/-- A chunk has at least one byte, at most the limit, and ends inside. -/
theorem chunk_bounds {n lim : Nat} {c : Chunk} (hl : 0 < lim) (h : c ∈ chunks n lim) :
    1 ≤ c.size ∧ c.size ≤ lim ∧ c.off + c.size ≤ n := by
  obtain ⟨i, rfl, hi⟩ := mem_chunks h
  simp only
  omega

/-- Something to move has a first chunk. -/
theorem chunks_ne_nil {n lim : Nat} (hn : 0 < n) (hl : 0 < lim) : chunks n lim ≠ [] := by
  intro h
  have h1 := congrArg List.length h
  rw [length_chunks, List.length_nil, Nat.div_eq_zero_iff] at h1
  omega

end Machine

end Sys2Proof
end

