-- ==== Sys2Proof/Laws/State.lean ====
section
/-! SUPPORT. One lemma per field of the state for each update of it, so that no later proof unfolds
a record update. -/

namespace Sys2Proof.Machine

variable (s : State)


/-! ### `accept` -/

@[simp] theorem State.accept_cfg (cmd : Instr) : (s.accept cmd).cfg = s.cfg := rfl
@[simp] theorem State.accept_linkUp (cmd : Instr) : (s.accept cmd).linkUp = s.linkUp := rfl
@[simp] theorem State.accept_mps (cmd : Instr) : (s.accept cmd).mps = s.mps := rfl
@[simp] theorem State.accept_aHs (cmd : Instr) : (s.accept cmd).aHs = s.aHs := rfl
@[simp] theorem State.accept_aBuf (cmd : Instr) : (s.accept cmd).aBuf = s.aBuf := rfl
@[simp] theorem State.accept_aLen (cmd : Instr) : (s.accept cmd).aLen = s.aLen := rfl
@[simp] theorem State.accept_reqId (cmd : Instr) : (s.accept cmd).reqId = s.reqId := rfl
@[simp] theorem State.accept_crcAcc (cmd : Instr) : (s.accept cmd).crcAcc = s.crcAcc := rfl
@[simp] theorem State.accept_cmdCrcBad (cmd : Instr) : (s.accept cmd).cmdCrcBad = false := rfl
@[simp] theorem State.accept_txBuf (cmd : Instr) : (s.accept cmd).txBuf = s.txBuf := rfl
@[simp] theorem State.accept_rxBuf (cmd : Instr) : (s.accept cmd).rxBuf = s.rxBuf := rfl
@[simp] theorem State.accept_handles (cmd : Instr) : (s.accept cmd).handles = s.handles := rfl
@[simp] theorem State.accept_respKind (cmd : Instr) : (s.accept cmd).respKind = s.respKind := rfl
@[simp] theorem State.accept_respSub (cmd : Instr) : (s.accept cmd).respSub = s.respSub := rfl
@[simp] theorem State.accept_respHandle (cmd : Instr) :
    (s.accept cmd).respHandle = s.respHandle := rfl
@[simp] theorem State.accept_respValue (cmd : Instr) : (s.accept cmd).respValue = s.respValue := rfl
@[simp] theorem State.accept_respData (cmd : Instr) : (s.accept cmd).respData = s.respData := rfl
@[simp] theorem State.accept_seq (cmd : Instr) : (s.accept cmd).seq = .busy cmd .start := rfl
@[simp] theorem State.accept_hostIn (cmd : Instr) : (s.accept cmd).hostIn = s.hostIn := rfl
@[simp] theorem State.accept_resetLine (cmd : Instr) : (s.accept cmd).resetLine = s.resetLine := rfl
@[simp] theorem State.accept_answers (cmd : Instr) : (s.accept cmd).answers = s.answers := rfl
@[simp] theorem State.accept_oracleIdx (cmd : Instr) : (s.accept cmd).oracleIdx = s.oracleIdx := rfl
@[simp] theorem State.accept_trace (cmd : Instr) : (s.accept cmd).trace = s.trace := rfl

/-! ### `emit` -/

@[simp] theorem State.emit_cfg (e : Event) : (s.emit e).cfg = s.cfg := rfl
@[simp] theorem State.emit_linkUp (e : Event) : (s.emit e).linkUp = s.linkUp := rfl
@[simp] theorem State.emit_mps (e : Event) : (s.emit e).mps = s.mps := rfl
@[simp] theorem State.emit_aHs (e : Event) : (s.emit e).aHs = s.aHs := rfl
@[simp] theorem State.emit_aBuf (e : Event) : (s.emit e).aBuf = s.aBuf := rfl
@[simp] theorem State.emit_aLen (e : Event) : (s.emit e).aLen = s.aLen := rfl
@[simp] theorem State.emit_reqId (e : Event) : (s.emit e).reqId = s.reqId := rfl
@[simp] theorem State.emit_crcAcc (e : Event) : (s.emit e).crcAcc = s.crcAcc := rfl
@[simp] theorem State.emit_cmdCrcBad (e : Event) : (s.emit e).cmdCrcBad = s.cmdCrcBad := rfl
@[simp] theorem State.emit_txBuf (e : Event) : (s.emit e).txBuf = s.txBuf := rfl
@[simp] theorem State.emit_rxBuf (e : Event) : (s.emit e).rxBuf = s.rxBuf := rfl
@[simp] theorem State.emit_handles (e : Event) : (s.emit e).handles = s.handles := rfl
@[simp] theorem State.emit_respKind (e : Event) : (s.emit e).respKind = s.respKind := rfl
@[simp] theorem State.emit_respSub (e : Event) : (s.emit e).respSub = s.respSub := rfl
@[simp] theorem State.emit_respHandle (e : Event) : (s.emit e).respHandle = s.respHandle := rfl
@[simp] theorem State.emit_respValue (e : Event) : (s.emit e).respValue = s.respValue := rfl
@[simp] theorem State.emit_respData (e : Event) : (s.emit e).respData = s.respData := rfl
@[simp] theorem State.emit_seq (e : Event) : (s.emit e).seq = s.seq := rfl
@[simp] theorem State.emit_hostIn (e : Event) : (s.emit e).hostIn = s.hostIn := rfl
@[simp] theorem State.emit_resetLine (e : Event) : (s.emit e).resetLine = s.resetLine := rfl
@[simp] theorem State.emit_answers (e : Event) : (s.emit e).answers = s.answers := rfl
@[simp] theorem State.emit_oracleIdx (e : Event) : (s.emit e).oracleIdx = s.oracleIdx := rfl
@[simp] theorem State.emit_trace (e : Event) : (s.emit e).trace = s.trace ++ [e] := rfl

/-! ### `respond` -/

@[simp] theorem State.respond_cfg (kind sub handle : Byte) (value : Word32) (data : List Byte) :
    (s.respond kind sub handle value data).cfg = s.cfg := rfl
@[simp] theorem State.respond_linkUp (kind sub handle : Byte) (value : Word32) (data : List Byte) :
    (s.respond kind sub handle value data).linkUp = s.linkUp := rfl
@[simp] theorem State.respond_mps (kind sub handle : Byte) (value : Word32) (data : List Byte) :
    (s.respond kind sub handle value data).mps = s.mps := rfl
@[simp] theorem State.respond_aHs (kind sub handle : Byte) (value : Word32) (data : List Byte) :
    (s.respond kind sub handle value data).aHs = s.aHs := rfl
@[simp] theorem State.respond_aBuf (kind sub handle : Byte) (value : Word32) (data : List Byte) :
    (s.respond kind sub handle value data).aBuf = s.aBuf := rfl
@[simp] theorem State.respond_aLen (kind sub handle : Byte) (value : Word32) (data : List Byte) :
    (s.respond kind sub handle value data).aLen = s.aLen := rfl
@[simp] theorem State.respond_reqId (kind sub handle : Byte) (value : Word32) (data : List Byte) :
    (s.respond kind sub handle value data).reqId = s.reqId := rfl
@[simp] theorem State.respond_crcAcc (kind sub handle : Byte) (value : Word32) (data : List Byte) :
    (s.respond kind sub handle value data).crcAcc = s.crcAcc := rfl
@[simp] theorem State.respond_cmdCrcBad (kind sub handle : Byte) (value : Word32) (data : List Byte) :
    (s.respond kind sub handle value data).cmdCrcBad = s.cmdCrcBad := rfl
@[simp] theorem State.respond_txBuf (kind sub handle : Byte) (value : Word32) (data : List Byte) :
    (s.respond kind sub handle value data).txBuf = s.txBuf := rfl
@[simp] theorem State.respond_rxBuf (kind sub handle : Byte) (value : Word32) (data : List Byte) :
    (s.respond kind sub handle value data).rxBuf = s.rxBuf := rfl
@[simp] theorem State.respond_handles (kind sub handle : Byte) (value : Word32) (data : List Byte) :
    (s.respond kind sub handle value data).handles = s.handles := rfl
@[simp] theorem State.respond_respKind (kind sub handle : Byte) (value : Word32) (data : List Byte) :
    (s.respond kind sub handle value data).respKind = kind := rfl
@[simp] theorem State.respond_respSub (kind sub handle : Byte) (value : Word32) (data : List Byte) :
    (s.respond kind sub handle value data).respSub = sub := rfl
@[simp] theorem State.respond_respHandle (kind sub handle : Byte) (value : Word32) (data : List Byte) :
    (s.respond kind sub handle value data).respHandle = handle := rfl
@[simp] theorem State.respond_respValue (kind sub handle : Byte) (value : Word32) (data : List Byte) :
    (s.respond kind sub handle value data).respValue = value := rfl
@[simp] theorem State.respond_respData (kind sub handle : Byte) (value : Word32) (data : List Byte) :
    (s.respond kind sub handle value data).respData = data := rfl
@[simp] theorem State.respond_seq (kind sub handle : Byte) (value : Word32) (data : List Byte) :
    (s.respond kind sub handle value data).seq = .idle := rfl
@[simp] theorem State.respond_hostIn (kind sub handle : Byte) (value : Word32) (data : List Byte) :
    (s.respond kind sub handle value data).hostIn = s.hostIn := rfl
@[simp] theorem State.respond_resetLine (kind sub handle : Byte) (value : Word32) (data : List Byte) :
    (s.respond kind sub handle value data).resetLine = s.resetLine := rfl
@[simp] theorem State.respond_answers (kind sub handle : Byte) (value : Word32) (data : List Byte) :
    (s.respond kind sub handle value data).answers = s.answers := rfl
@[simp] theorem State.respond_oracleIdx (kind sub handle : Byte) (value : Word32) (data : List Byte) :
    (s.respond kind sub handle value data).oracleIdx = s.oracleIdx := rfl
@[simp] theorem State.respond_trace (kind sub handle : Byte) (value : Word32) (data : List Byte) :
    (s.respond kind sub handle value data).trace =
      s.trace ++ [.response (responseFrame kind sub handle (responseFlags s.cmdCrcBad) value data)] := rfl

/-! ### `linkDownOnTimeout` -/

@[simp] theorem State.linkDownOnTimeout_cfg (e : Err) : (s.linkDownOnTimeout e).cfg = s.cfg := rfl
@[simp] theorem State.linkDownOnTimeout_linkUp (e : Err) :
    (s.linkDownOnTimeout e).linkUp = (s.linkUp && !isTimeout e) := rfl
@[simp] theorem State.linkDownOnTimeout_mps (e : Err) : (s.linkDownOnTimeout e).mps = s.mps := rfl
@[simp] theorem State.linkDownOnTimeout_aHs (e : Err) : (s.linkDownOnTimeout e).aHs = s.aHs := rfl
@[simp] theorem State.linkDownOnTimeout_aBuf (e : Err) :
    (s.linkDownOnTimeout e).aBuf = s.aBuf := rfl
@[simp] theorem State.linkDownOnTimeout_aLen (e : Err) :
    (s.linkDownOnTimeout e).aLen = s.aLen := rfl
@[simp] theorem State.linkDownOnTimeout_reqId (e : Err) :
    (s.linkDownOnTimeout e).reqId = s.reqId := rfl
@[simp] theorem State.linkDownOnTimeout_crcAcc (e : Err) :
    (s.linkDownOnTimeout e).crcAcc = s.crcAcc := rfl
@[simp] theorem State.linkDownOnTimeout_cmdCrcBad (e : Err) :
    (s.linkDownOnTimeout e).cmdCrcBad = s.cmdCrcBad := rfl
@[simp] theorem State.linkDownOnTimeout_txBuf (e : Err) :
    (s.linkDownOnTimeout e).txBuf = s.txBuf := rfl
@[simp] theorem State.linkDownOnTimeout_rxBuf (e : Err) :
    (s.linkDownOnTimeout e).rxBuf = s.rxBuf := rfl
@[simp] theorem State.linkDownOnTimeout_handles (e : Err) :
    (s.linkDownOnTimeout e).handles = s.handles := rfl
@[simp] theorem State.linkDownOnTimeout_respKind (e : Err) :
    (s.linkDownOnTimeout e).respKind = s.respKind := rfl
@[simp] theorem State.linkDownOnTimeout_respSub (e : Err) :
    (s.linkDownOnTimeout e).respSub = s.respSub := rfl
@[simp] theorem State.linkDownOnTimeout_respHandle (e : Err) :
    (s.linkDownOnTimeout e).respHandle = s.respHandle := rfl
@[simp] theorem State.linkDownOnTimeout_respValue (e : Err) :
    (s.linkDownOnTimeout e).respValue = s.respValue := rfl
@[simp] theorem State.linkDownOnTimeout_respData (e : Err) :
    (s.linkDownOnTimeout e).respData = s.respData := rfl
@[simp] theorem State.linkDownOnTimeout_seq (e : Err) : (s.linkDownOnTimeout e).seq = s.seq := rfl
@[simp] theorem State.linkDownOnTimeout_hostIn (e : Err) :
    (s.linkDownOnTimeout e).hostIn = s.hostIn := rfl
@[simp] theorem State.linkDownOnTimeout_resetLine (e : Err) :
    (s.linkDownOnTimeout e).resetLine = s.resetLine := rfl
@[simp] theorem State.linkDownOnTimeout_answers (e : Err) :
    (s.linkDownOnTimeout e).answers = s.answers := rfl
@[simp] theorem State.linkDownOnTimeout_oracleIdx (e : Err) :
    (s.linkDownOnTimeout e).oracleIdx = s.oracleIdx := rfl
@[simp] theorem State.linkDownOnTimeout_trace (e : Err) :
    (s.linkDownOnTimeout e).trace = s.trace := rfl

/-! ### `setHandle` -/

@[simp] theorem State.setHandle_cfg (h : Nat) (e : Handle) : (s.setHandle h e).cfg = s.cfg := rfl
@[simp] theorem State.setHandle_linkUp (h : Nat) (e : Handle) :
    (s.setHandle h e).linkUp = s.linkUp := rfl
@[simp] theorem State.setHandle_mps (h : Nat) (e : Handle) : (s.setHandle h e).mps = s.mps := rfl
@[simp] theorem State.setHandle_aHs (h : Nat) (e : Handle) : (s.setHandle h e).aHs = s.aHs := rfl
@[simp] theorem State.setHandle_aBuf (h : Nat) (e : Handle) : (s.setHandle h e).aBuf = s.aBuf := rfl
@[simp] theorem State.setHandle_aLen (h : Nat) (e : Handle) : (s.setHandle h e).aLen = s.aLen := rfl
@[simp] theorem State.setHandle_reqId (h : Nat) (e : Handle) :
    (s.setHandle h e).reqId = s.reqId := rfl
@[simp] theorem State.setHandle_crcAcc (h : Nat) (e : Handle) :
    (s.setHandle h e).crcAcc = s.crcAcc := rfl
@[simp] theorem State.setHandle_cmdCrcBad (h : Nat) (e : Handle) :
    (s.setHandle h e).cmdCrcBad = s.cmdCrcBad := rfl
@[simp] theorem State.setHandle_txBuf (h : Nat) (e : Handle) :
    (s.setHandle h e).txBuf = s.txBuf := rfl
@[simp] theorem State.setHandle_rxBuf (h : Nat) (e : Handle) :
    (s.setHandle h e).rxBuf = s.rxBuf := rfl
@[simp] theorem State.setHandle_handles (h : Nat) (e : Handle) :
    (s.setHandle h e).handles = s.handles.set h e := rfl
@[simp] theorem State.setHandle_respKind (h : Nat) (e : Handle) :
    (s.setHandle h e).respKind = s.respKind := rfl
@[simp] theorem State.setHandle_respSub (h : Nat) (e : Handle) :
    (s.setHandle h e).respSub = s.respSub := rfl
@[simp] theorem State.setHandle_respHandle (h : Nat) (e : Handle) :
    (s.setHandle h e).respHandle = s.respHandle := rfl
@[simp] theorem State.setHandle_respValue (h : Nat) (e : Handle) :
    (s.setHandle h e).respValue = s.respValue := rfl
@[simp] theorem State.setHandle_respData (h : Nat) (e : Handle) :
    (s.setHandle h e).respData = s.respData := rfl
@[simp] theorem State.setHandle_seq (h : Nat) (e : Handle) : (s.setHandle h e).seq = s.seq := rfl
@[simp] theorem State.setHandle_hostIn (h : Nat) (e : Handle) :
    (s.setHandle h e).hostIn = s.hostIn := rfl
@[simp] theorem State.setHandle_resetLine (h : Nat) (e : Handle) :
    (s.setHandle h e).resetLine = s.resetLine := rfl
@[simp] theorem State.setHandle_answers (h : Nat) (e : Handle) :
    (s.setHandle h e).answers = s.answers := rfl
@[simp] theorem State.setHandle_oracleIdx (h : Nat) (e : Handle) :
    (s.setHandle h e).oracleIdx = s.oracleIdx := rfl
@[simp] theorem State.setHandle_trace (h : Nat) (e : Handle) :
    (s.setHandle h e).trace = s.trace := rfl

/-! ### `markAllStale` -/

@[simp] theorem State.markAllStale_cfg : (s.markAllStale).cfg = s.cfg := rfl
@[simp] theorem State.markAllStale_linkUp : (s.markAllStale).linkUp = s.linkUp := rfl
@[simp] theorem State.markAllStale_mps : (s.markAllStale).mps = s.mps := rfl
@[simp] theorem State.markAllStale_aHs : (s.markAllStale).aHs = s.aHs := rfl
@[simp] theorem State.markAllStale_aBuf : (s.markAllStale).aBuf = s.aBuf := rfl
@[simp] theorem State.markAllStale_aLen : (s.markAllStale).aLen = s.aLen := rfl
@[simp] theorem State.markAllStale_reqId : (s.markAllStale).reqId = s.reqId := rfl
@[simp] theorem State.markAllStale_crcAcc : (s.markAllStale).crcAcc = s.crcAcc := rfl
@[simp] theorem State.markAllStale_cmdCrcBad : (s.markAllStale).cmdCrcBad = s.cmdCrcBad := rfl
@[simp] theorem State.markAllStale_txBuf : (s.markAllStale).txBuf = s.txBuf := rfl
@[simp] theorem State.markAllStale_rxBuf : (s.markAllStale).rxBuf = s.rxBuf := rfl
@[simp] theorem State.markAllStale_handles :
    (s.markAllStale).handles = markStale (fun _ => true) s.handles := rfl
@[simp] theorem State.markAllStale_respKind : (s.markAllStale).respKind = s.respKind := rfl
@[simp] theorem State.markAllStale_respSub : (s.markAllStale).respSub = s.respSub := rfl
@[simp] theorem State.markAllStale_respHandle : (s.markAllStale).respHandle = s.respHandle := rfl
@[simp] theorem State.markAllStale_respValue : (s.markAllStale).respValue = s.respValue := rfl
@[simp] theorem State.markAllStale_respData : (s.markAllStale).respData = s.respData := rfl
@[simp] theorem State.markAllStale_seq : (s.markAllStale).seq = s.seq := rfl
@[simp] theorem State.markAllStale_hostIn : (s.markAllStale).hostIn = s.hostIn := rfl
@[simp] theorem State.markAllStale_resetLine : (s.markAllStale).resetLine = s.resetLine := rfl
@[simp] theorem State.markAllStale_answers : (s.markAllStale).answers = s.answers := rfl
@[simp] theorem State.markAllStale_oracleIdx : (s.markAllStale).oracleIdx = s.oracleIdx := rfl
@[simp] theorem State.markAllStale_trace : (s.markAllStale).trace = s.trace := rfl

/-! ### `markSelStale` -/

@[simp] theorem State.markSelStale_cfg (sel : Byte) : (s.markSelStale sel).cfg = s.cfg := rfl
@[simp] theorem State.markSelStale_linkUp (sel : Byte) :
    (s.markSelStale sel).linkUp = s.linkUp := rfl
@[simp] theorem State.markSelStale_mps (sel : Byte) : (s.markSelStale sel).mps = s.mps := rfl
@[simp] theorem State.markSelStale_aHs (sel : Byte) : (s.markSelStale sel).aHs = s.aHs := rfl
@[simp] theorem State.markSelStale_aBuf (sel : Byte) : (s.markSelStale sel).aBuf = s.aBuf := rfl
@[simp] theorem State.markSelStale_aLen (sel : Byte) : (s.markSelStale sel).aLen = s.aLen := rfl
@[simp] theorem State.markSelStale_reqId (sel : Byte) : (s.markSelStale sel).reqId = s.reqId := rfl
@[simp] theorem State.markSelStale_crcAcc (sel : Byte) :
    (s.markSelStale sel).crcAcc = s.crcAcc := rfl
@[simp] theorem State.markSelStale_cmdCrcBad (sel : Byte) :
    (s.markSelStale sel).cmdCrcBad = s.cmdCrcBad := rfl
@[simp] theorem State.markSelStale_txBuf (sel : Byte) : (s.markSelStale sel).txBuf = s.txBuf := rfl
@[simp] theorem State.markSelStale_rxBuf (sel : Byte) : (s.markSelStale sel).rxBuf = s.rxBuf := rfl
@[simp] theorem State.markSelStale_handles (sel : Byte) :
    (s.markSelStale sel).handles = markStale (fun x => x == sel) s.handles := rfl
@[simp] theorem State.markSelStale_respKind (sel : Byte) :
    (s.markSelStale sel).respKind = s.respKind := rfl
@[simp] theorem State.markSelStale_respSub (sel : Byte) :
    (s.markSelStale sel).respSub = s.respSub := rfl
@[simp] theorem State.markSelStale_respHandle (sel : Byte) :
    (s.markSelStale sel).respHandle = s.respHandle := rfl
@[simp] theorem State.markSelStale_respValue (sel : Byte) :
    (s.markSelStale sel).respValue = s.respValue := rfl
@[simp] theorem State.markSelStale_respData (sel : Byte) :
    (s.markSelStale sel).respData = s.respData := rfl
@[simp] theorem State.markSelStale_seq (sel : Byte) : (s.markSelStale sel).seq = s.seq := rfl
@[simp] theorem State.markSelStale_hostIn (sel : Byte) :
    (s.markSelStale sel).hostIn = s.hostIn := rfl
@[simp] theorem State.markSelStale_resetLine (sel : Byte) :
    (s.markSelStale sel).resetLine = s.resetLine := rfl
@[simp] theorem State.markSelStale_answers (sel : Byte) :
    (s.markSelStale sel).answers = s.answers := rfl
@[simp] theorem State.markSelStale_oracleIdx (sel : Byte) :
    (s.markSelStale sel).oracleIdx = s.oracleIdx := rfl
@[simp] theorem State.markSelStale_trace (sel : Byte) : (s.markSelStale sel).trace = s.trace := rfl

/-! ### `received` -/

@[simp] theorem State.received_cfg (cmd : Word16) (a : Ack) : (s.received cmd a).cfg = s.cfg := rfl
@[simp] theorem State.received_linkUp (cmd : Word16) (a : Ack) :
    (s.received cmd a).linkUp = s.linkUp := rfl
@[simp] theorem State.received_mps (cmd : Word16) (a : Ack) : (s.received cmd a).mps = s.mps := rfl
@[simp] theorem State.received_aHs (cmd : Word16) (a : Ack) : (s.received cmd a).aHs = s.aHs := rfl
@[simp] theorem State.received_aBuf (cmd : Word16) (a : Ack) :
    (s.received cmd a).aBuf = s.aBuf := rfl
@[simp] theorem State.received_aLen (cmd : Word16) (a : Ack) :
    (s.received cmd a).aLen = s.aLen := rfl
@[simp] theorem State.received_reqId (cmd : Word16) (a : Ack) :
    (s.received cmd a).reqId = s.reqId := rfl
@[simp] theorem State.received_crcAcc (cmd : Word16) (a : Ack) :
    (s.received cmd a).crcAcc = receivedCrc cmd a := by
  rw [State.received]
@[simp] theorem State.received_cmdCrcBad (cmd : Word16) (a : Ack) :
    (s.received cmd a).cmdCrcBad = (s.cmdCrcBad || crcDiffers cmd a) := by
  rw [State.received]
@[simp] theorem State.received_txBuf (cmd : Word16) (a : Ack) :
    (s.received cmd a).txBuf = s.txBuf := rfl
@[simp] theorem State.received_rxBuf (cmd : Word16) (a : Ack) :
    (s.received cmd a).rxBuf = packetBytes cmd a := rfl
@[simp] theorem State.received_handles (cmd : Word16) (a : Ack) :
    (s.received cmd a).handles = s.handles := rfl
@[simp] theorem State.received_respKind (cmd : Word16) (a : Ack) :
    (s.received cmd a).respKind = s.respKind := rfl
@[simp] theorem State.received_respSub (cmd : Word16) (a : Ack) :
    (s.received cmd a).respSub = s.respSub := rfl
@[simp] theorem State.received_respHandle (cmd : Word16) (a : Ack) :
    (s.received cmd a).respHandle = s.respHandle := rfl
@[simp] theorem State.received_respValue (cmd : Word16) (a : Ack) :
    (s.received cmd a).respValue = s.respValue := rfl
@[simp] theorem State.received_respData (cmd : Word16) (a : Ack) :
    (s.received cmd a).respData = s.respData := rfl
@[simp] theorem State.received_seq (cmd : Word16) (a : Ack) : (s.received cmd a).seq = s.seq := rfl
@[simp] theorem State.received_hostIn (cmd : Word16) (a : Ack) :
    (s.received cmd a).hostIn = s.hostIn := rfl
@[simp] theorem State.received_resetLine (cmd : Word16) (a : Ack) :
    (s.received cmd a).resetLine = s.resetLine := rfl
@[simp] theorem State.received_answers (cmd : Word16) (a : Ack) :
    (s.received cmd a).answers = s.answers := rfl
@[simp] theorem State.received_oracleIdx (cmd : Word16) (a : Ack) :
    (s.received cmd a).oracleIdx = s.oracleIdx := rfl
@[simp] theorem State.received_trace (cmd : Word16) (a : Ack) :
    (s.received cmd a).trace = s.trace := rfl

/-! ### `establish` -/

@[simp] theorem State.establish_cfg (cap hs buf lenreg : Word16) :
    (s.establish cap hs buf lenreg).cfg = s.cfg := rfl
@[simp] theorem State.establish_linkUp (cap hs buf lenreg : Word16) :
    (s.establish cap hs buf lenreg).linkUp = true := rfl
@[simp] theorem State.establish_mps (cap hs buf lenreg : Word16) :
    (s.establish cap hs buf lenreg).mps = BitVec.ofNat 11 (min cap.toNat mpsLimit) := rfl
@[simp] theorem State.establish_aHs (cap hs buf lenreg : Word16) :
    (s.establish cap hs buf lenreg).aHs = hs := rfl
@[simp] theorem State.establish_aBuf (cap hs buf lenreg : Word16) :
    (s.establish cap hs buf lenreg).aBuf = buf := rfl
@[simp] theorem State.establish_aLen (cap hs buf lenreg : Word16) :
    (s.establish cap hs buf lenreg).aLen = lenreg := rfl
@[simp] theorem State.establish_reqId (cap hs buf lenreg : Word16) :
    (s.establish cap hs buf lenreg).reqId = firstRequestId := rfl
@[simp] theorem State.establish_crcAcc (cap hs buf lenreg : Word16) :
    (s.establish cap hs buf lenreg).crcAcc = s.crcAcc := rfl
@[simp] theorem State.establish_cmdCrcBad (cap hs buf lenreg : Word16) :
    (s.establish cap hs buf lenreg).cmdCrcBad = s.cmdCrcBad := rfl
@[simp] theorem State.establish_txBuf (cap hs buf lenreg : Word16) :
    (s.establish cap hs buf lenreg).txBuf = s.txBuf := rfl
@[simp] theorem State.establish_rxBuf (cap hs buf lenreg : Word16) :
    (s.establish cap hs buf lenreg).rxBuf = s.rxBuf := rfl
@[simp] theorem State.establish_handles (cap hs buf lenreg : Word16) :
    (s.establish cap hs buf lenreg).handles = s.handles := rfl
@[simp] theorem State.establish_respKind (cap hs buf lenreg : Word16) :
    (s.establish cap hs buf lenreg).respKind = s.respKind := rfl
@[simp] theorem State.establish_respSub (cap hs buf lenreg : Word16) :
    (s.establish cap hs buf lenreg).respSub = s.respSub := rfl
@[simp] theorem State.establish_respHandle (cap hs buf lenreg : Word16) :
    (s.establish cap hs buf lenreg).respHandle = s.respHandle := rfl
@[simp] theorem State.establish_respValue (cap hs buf lenreg : Word16) :
    (s.establish cap hs buf lenreg).respValue = s.respValue := rfl
@[simp] theorem State.establish_respData (cap hs buf lenreg : Word16) :
    (s.establish cap hs buf lenreg).respData = s.respData := rfl
@[simp] theorem State.establish_seq (cap hs buf lenreg : Word16) :
    (s.establish cap hs buf lenreg).seq = s.seq := rfl
@[simp] theorem State.establish_hostIn (cap hs buf lenreg : Word16) :
    (s.establish cap hs buf lenreg).hostIn = s.hostIn := rfl
@[simp] theorem State.establish_resetLine (cap hs buf lenreg : Word16) :
    (s.establish cap hs buf lenreg).resetLine = s.resetLine := rfl
@[simp] theorem State.establish_answers (cap hs buf lenreg : Word16) :
    (s.establish cap hs buf lenreg).answers = s.answers := rfl
@[simp] theorem State.establish_oracleIdx (cap hs buf lenreg : Word16) :
    (s.establish cap hs buf lenreg).oracleIdx = s.oracleIdx := rfl
@[simp] theorem State.establish_trace (cap hs buf lenreg : Word16) :
    (s.establish cap hs buf lenreg).trace = s.trace := rfl

/-! ### `goto` -/

@[simp] theorem State.goto_cfg (p : Pos) : (s.goto p).cfg = s.cfg := by
  unfold State.goto; split <;> rfl
@[simp] theorem State.goto_linkUp (p : Pos) : (s.goto p).linkUp = s.linkUp := by
  unfold State.goto; split <;> rfl
@[simp] theorem State.goto_mps (p : Pos) : (s.goto p).mps = s.mps := by
  unfold State.goto; split <;> rfl
@[simp] theorem State.goto_aHs (p : Pos) : (s.goto p).aHs = s.aHs := by
  unfold State.goto; split <;> rfl
@[simp] theorem State.goto_aBuf (p : Pos) : (s.goto p).aBuf = s.aBuf := by
  unfold State.goto; split <;> rfl
@[simp] theorem State.goto_aLen (p : Pos) : (s.goto p).aLen = s.aLen := by
  unfold State.goto; split <;> rfl
@[simp] theorem State.goto_reqId (p : Pos) : (s.goto p).reqId = s.reqId := by
  unfold State.goto; split <;> rfl
@[simp] theorem State.goto_crcAcc (p : Pos) : (s.goto p).crcAcc = s.crcAcc := by
  unfold State.goto; split <;> rfl
@[simp] theorem State.goto_cmdCrcBad (p : Pos) : (s.goto p).cmdCrcBad = s.cmdCrcBad := by
  unfold State.goto; split <;> rfl
@[simp] theorem State.goto_txBuf (p : Pos) : (s.goto p).txBuf = s.txBuf := by
  unfold State.goto; split <;> rfl
@[simp] theorem State.goto_rxBuf (p : Pos) : (s.goto p).rxBuf = s.rxBuf := by
  unfold State.goto; split <;> rfl
@[simp] theorem State.goto_handles (p : Pos) : (s.goto p).handles = s.handles := by
  unfold State.goto; split <;> rfl
@[simp] theorem State.goto_respKind (p : Pos) : (s.goto p).respKind = s.respKind := by
  unfold State.goto; split <;> rfl
@[simp] theorem State.goto_respSub (p : Pos) : (s.goto p).respSub = s.respSub := by
  unfold State.goto; split <;> rfl
@[simp] theorem State.goto_respHandle (p : Pos) : (s.goto p).respHandle = s.respHandle := by
  unfold State.goto; split <;> rfl
@[simp] theorem State.goto_respValue (p : Pos) : (s.goto p).respValue = s.respValue := by
  unfold State.goto; split <;> rfl
@[simp] theorem State.goto_respData (p : Pos) : (s.goto p).respData = s.respData := by
  unfold State.goto; split <;> rfl
@[simp] theorem State.goto_hostIn (p : Pos) : (s.goto p).hostIn = s.hostIn := by
  unfold State.goto; split <;> rfl
@[simp] theorem State.goto_resetLine (p : Pos) : (s.goto p).resetLine = s.resetLine := by
  unfold State.goto; split <;> rfl
@[simp] theorem State.goto_answers (p : Pos) : (s.goto p).answers = s.answers := by
  unfold State.goto; split <;> rfl
@[simp] theorem State.goto_oracleIdx (p : Pos) : (s.goto p).oracleIdx = s.oracleIdx := by
  unfold State.goto; split <;> rfl
@[simp] theorem State.goto_trace (p : Pos) : (s.goto p).trace = s.trace := by
  unfold State.goto; split <;> rfl

/-! ### `raiseErr` -/

@[simp] theorem State.raiseErr_cfg (e : Err) : (s.raiseErr e).cfg = s.cfg := by
  unfold State.raiseErr; split <;> rfl
@[simp] theorem State.raiseErr_mps (e : Err) : (s.raiseErr e).mps = s.mps := by
  unfold State.raiseErr; split <;> rfl
@[simp] theorem State.raiseErr_aHs (e : Err) : (s.raiseErr e).aHs = s.aHs := by
  unfold State.raiseErr; split <;> rfl
@[simp] theorem State.raiseErr_aBuf (e : Err) : (s.raiseErr e).aBuf = s.aBuf := by
  unfold State.raiseErr; split <;> rfl
@[simp] theorem State.raiseErr_aLen (e : Err) : (s.raiseErr e).aLen = s.aLen := by
  unfold State.raiseErr; split <;> rfl
@[simp] theorem State.raiseErr_reqId (e : Err) : (s.raiseErr e).reqId = s.reqId := by
  unfold State.raiseErr; split <;> rfl
@[simp] theorem State.raiseErr_crcAcc (e : Err) : (s.raiseErr e).crcAcc = s.crcAcc := by
  unfold State.raiseErr; split <;> rfl
@[simp] theorem State.raiseErr_cmdCrcBad (e : Err) : (s.raiseErr e).cmdCrcBad = s.cmdCrcBad := by
  unfold State.raiseErr; split <;> rfl
@[simp] theorem State.raiseErr_txBuf (e : Err) : (s.raiseErr e).txBuf = s.txBuf := by
  unfold State.raiseErr; split <;> rfl
@[simp] theorem State.raiseErr_rxBuf (e : Err) : (s.raiseErr e).rxBuf = s.rxBuf := by
  unfold State.raiseErr; split <;> rfl
@[simp] theorem State.raiseErr_handles (e : Err) : (s.raiseErr e).handles = s.handles := by
  unfold State.raiseErr; split <;> rfl
@[simp] theorem State.raiseErr_hostIn (e : Err) : (s.raiseErr e).hostIn = s.hostIn := by
  unfold State.raiseErr; split <;> rfl
@[simp] theorem State.raiseErr_resetLine (e : Err) : (s.raiseErr e).resetLine = s.resetLine := by
  unfold State.raiseErr; split <;> rfl
@[simp] theorem State.raiseErr_answers (e : Err) : (s.raiseErr e).answers = s.answers := by
  unfold State.raiseErr; split <;> rfl
@[simp] theorem State.raiseErr_oracleIdx (e : Err) : (s.raiseErr e).oracleIdx = s.oracleIdx := by
  unfold State.raiseErr; split <;> rfl
@[simp] theorem State.raiseErr_seq (e : Err) : (s.raiseErr e).seq = .idle := by
  unfold State.raiseErr; split <;> rfl
@[simp] theorem State.raiseErr_linkUp (e : Err) :
    (s.raiseErr e).linkUp = (s.linkUp && !isTimeout e) := by
  unfold State.raiseErr; split <;> rfl

end Sys2Proof.Machine
end

