-- ==== Sys2Proof/Laws/Ops.lean ====
section
/-! SUPPORT. What each shared operation can do, said once: moving the sequencer, ending a command,
raising an error, a channel primitive, one step of the block, and steps taken together. -/

namespace Sys2Proof.Machine

variable (s : State)

/-! ### Positions -/

theorem State.goto_busy {cmd : Instr} {q : Pos} (h : s.seq = .busy cmd q) (p : Pos) :
    s.goto p = { s with seq := .busy cmd p } := by
  simp [State.goto, h]

theorem State.goto_idle (h : s.seq = .idle) (p : Pos) : s.goto p = s := by
  simp [State.goto, h]

theorem State.goto_seq_busy {cmd : Instr} {q : Pos} (h : s.seq = .busy cmd q) (p : Pos) :
    (s.goto p).seq = .busy cmd p := by
  simp [State.goto, h]

theorem State.goto_goto (p q : Pos) : (s.goto p).goto q = s.goto q := by
  cases h : s.seq <;> simp [State.goto, h]

/-- An output, then the next position. -/
theorem State.emit_goto {cmd : Instr} {q : Pos} (h : s.seq = .busy cmd q) (e : Event) (p : Pos) :
    (s.emit e).goto p = { s with seq := .busy cmd p, trace := s.trace ++ [e] } := by
  rw [State.goto_busy (s.emit e) (cmd := cmd) (q := q) h]
  rfl

/-! ### Ends of a command -/

theorem responseFlags_eq (b : Bool) : responseFlags b = if b then 1 else 0 := rfl

theorem State.respond_eq_ended (kind sub handle : Byte) (value : Word32) (data : List Byte) :
    s.respond kind sub handle value data = s.ended kind sub handle value data := rfl

theorem State.respondOk_eq_ended (handle : Byte) (value : Word32) (data : List Byte) :
    s.respondOk handle value data = s.ended 0 0 handle value data := rfl

theorem State.respondErr_eq_failed (e : Err) :
    s.respondErr e = s.failed (errCode e).1 (errCode e).2 := rfl

/-- An error of a command that swallows none. -/
theorem State.raiseErr_of_not_swallows (h : s.swallows = false) (e : Err) :
    s.raiseErr e =
      { s with linkUp := s.linkUp && !isTimeout e }.failed (errCode e).1 (errCode e).2 := by
  simp [State.raiseErr, h, State.respondErr_eq_failed, State.linkDownOnTimeout]

/-- An error inside the Close of HANDLE_DROP. -/
theorem State.raiseErr_of_swallows (h : s.swallows = true) (e : Err) :
    s.raiseErr e = { s with linkUp := s.linkUp && !isTimeout e }.ended 0 0 0 0 [] := by
  simp [State.raiseErr, h, State.respondOk_eq_ended, State.linkDownOnTimeout]

/-- A raise ends the command with exactly one response. -/
theorem State.raiseErr_trace (e : Err) :
    ∃ f, (s.raiseErr e).trace = s.trace ++ [.response f] := by
  unfold State.raiseErr
  split <;> exact ⟨_, rfl⟩

theorem State.swallows_idle (h : s.seq = .idle) : s.swallows = false := by
  simp [State.swallows, h]

theorem State.swallows_start {cmd : Instr} (h : s.seq = .busy cmd .start) :
    s.swallows = false := by
  simp [State.swallows, h, Pos.task?]

/-- Only HANDLE_DROP's Close swallows. -/
theorem State.swallows_busy {cmd : Instr} {pos : Pos} (h : s.seq = .busy cmd pos) :
    s.swallows = decide (pos.task? = some .dropClose) := by
  simp [State.swallows, h]

/-! ### Channel primitives -/

theorem Primitive.outcome_write (addr : Word16) (bytes : List Byte) (a : Answer) :
    (Primitive.memWrite addr bytes).outcome a =
      if a = .fail then .error .writeFailed else .ok [] := by
  cases a <;> rfl

theorem Primitive.outcome_read (addr : Word16) (n : Nat) (bytes : List Byte) :
    (Primitive.memRead addr n).outcome (.done bytes) =
      if bytes.length = n then .ok bytes else .error .readFailed := rfl

/-- A primitive fails with WRITE_FAILED or READ_FAILED and no other error (R199). -/
theorem Primitive.outcome_error {p : Primitive} {a : Answer} {e : Err} (h : p.outcome a = .error e) :
    e = .writeFailed ∨ e = .readFailed := by
  cases p <;> cases a <;> simp only [Primitive.outcome] at h
  · cases h; exact .inl rfl
  · cases h
  · cases h; exact .inr rfl
  · split at h <;> cases h
    exact .inr rfl

/-- The block stands before a primitive only within the exchange of a chunk. -/
theorem State.pending_some {p : Primitive} (h : s.pending = some p) :
    ∃ cmd op phase task, s.seq = .busy cmd (.chunk op phase task) ∧
      s.phasePrimitive phase = some p := by
  unfold State.pending at h
  split at h
  · rename_i cmd op phase task hs
    exact ⟨cmd, op, phase, task, hs, h⟩
  · cases h

theorem State.pending_chunk {cmd : Instr} {op : RegOp} {phase : Phase} {task : Task}
    (h : s.seq = .busy cmd (.chunk op phase task)) : s.pending = s.phasePrimitive phase := by
  simp [State.pending, h]

theorem State.pending_idle (h : s.seq = .idle) : s.pending = none := by
  simp [State.pending, h]

/-- A primitive that fails leads to its raise. -/
theorem State.feed_error {p : Primitive} {a : Answer} {e : Err} {cmd : Instr} {op : RegOp}
    {phase : Phase} {task : Task} (h : p.outcome a = .error e)
    (hs : s.seq = .busy cmd (.chunk op phase task)) :
    s.feed p a = { s with
      seq := .busy cmd (.raised e task), trace := s.trace ++ [p.event (.error e)] } := by
  simp only [State.feed, h, hs]
  exact s.emit_goto hs _ _

/-- A primitive that completes. -/
theorem State.feed_ok {p : Primitive} {a : Answer} {bytes : List Byte} {cmd : Instr} {op : RegOp}
    {phase : Phase} {task : Task} (h : p.outcome a = .ok bytes)
    (hs : s.seq = .busy cmd (.chunk op phase task)) :
    s.feed p a = (s.emit (p.event (.ok bytes))).advance op phase task bytes := by
  simp [State.feed, h, hs]

theorem State.takeAnswer_cons {a : Answer} {as : List Answer} (h : s.answers = a :: as) :
    s.takeAnswer = (a, { s with answers := as }) := by
  simp [State.takeAnswer, h]

theorem State.takeAnswer_nil (h : s.answers = []) :
    s.takeAnswer = (Config.deviceAnswer s.oracleIdx, { s with oracleIdx := s.oracleIdx + 1 }) := by
  simp [State.takeAnswer, h]

/-- A primitive takes one answer and leaves everything but the inputs to `feed`. -/
theorem State.issue_cases (p : Primitive) :
    ∃ a as k, s.issue p = ({ s with answers := as, oracleIdx := k } : State).feed p a := by
  cases h : s.answers with
  | nil => exact ⟨_, [], s.oracleIdx + 1, by rw [State.issue, s.takeAnswer_nil h, ← h]⟩
  | cons a as => exact ⟨a, as, s.oracleIdx, by rw [State.issue, s.takeAnswer_cons h]⟩

/-- A raise within a register operation, as the statements write it. -/
theorem State.raiseErr_eq_aborted {cmd : Instr} {pos : Pos} {task : Task}
    (h : s.seq = .busy cmd pos) (ht : pos.task? = some task) (e : Err) (he : isTimeout e = false) :
    s.raiseErr e = s.aborted task (errCode e).1 (errCode e).2 := by
  have hl : { s with linkUp := s.linkUp && !isTimeout e } = s := by simp [he]
  by_cases hd : task = .dropClose
  · subst hd
    rw [s.raiseErr_of_swallows (by rw [s.swallows_busy h, ht]; rfl), hl, State.aborted, if_pos rfl]
  · rw [s.raiseErr_of_not_swallows (by rw [s.swallows_busy h, ht]; simpa using hd), hl,
      State.aborted, if_neg hd]

/-! ### One step (R33) -/

/-- Everything a step that answers a next state can do. -/
theorem step_cases {s t : State} (h : step s = .next t) :
    configOk s.cfg = true ∧
      ((s.resetLine = true ∧ t = s.applyReset) ∨
        (s.resetLine = false ∧ ∃ i s', s.fetch = some (i, s') ∧ exec i s' = .next t) ∨
        (s.resetLine = false ∧ s.fetch = none ∧ s.seq = .idle ∧ t = s) ∨
        (s.resetLine = false ∧ s.fetch = none ∧ (∃ c pos, s.seq = .busy c pos) ∧ t = s.resume)) := by
  unfold step at h
  split at h
  · cases h
  · rename_i hc
    refine ⟨by simpa using hc, ?_⟩
    split at h
    · cases h; exact .inl ⟨by assumption, rfl⟩
    · rename_i hr
      have hr : s.resetLine = false := by simpa using hr
      split at h
      · exact .inr (.inl ⟨hr, _, _, by assumption, h⟩)
      · split at h
        · cases h; exact .inr (.inr (.inl ⟨hr, by assumption, by assumption, rfl⟩))
        · cases h; exact .inr (.inr (.inr ⟨hr, by assumption, ⟨_, _, by assumption⟩, rfl⟩))

variable {s}

theorem step_fetch {i : Instr} {s' : State} (h : s.running) (hf : s.fetch = some (i, s')) :
    step s = exec i s' := by
  simp [step, h.1, h.2, hf]

theorem step_resume {c : Instr} {pos : Pos} (h : s.running) (hf : s.fetch = none)
    (hs : s.seq = .busy c pos) : step s = .next s.resume := by
  simp [step, h.1, h.2, hf, hs]

theorem State.fetch_start {c : Instr} (hs : s.seq = .busy c .start) : s.fetch = some (c, s) := by
  simp [State.fetch, hs]

theorem State.fetch_encode {c : Instr} {op : RegOp} {task : Task}
    (hs : s.seq = .busy c (.chunk op .encode task)) : s.fetch = some (op.request, s) := by
  simp [State.fetch, hs]

/-- At a position before a primitive, the step issues it with the next answer. -/
theorem step_primitive {c : Instr} {op : RegOp} {phase : Phase} {task : Task} {p : Primitive}
    {a : Answer} {as : List Answer} (h : s.running) (hs : s.seq = .busy c (.chunk op phase task))
    (hp : s.phasePrimitive phase = some p) (ha : s.answers = a :: as) :
    step s = .next (({ s with answers := as } : State).feed p a) := by
  have hf : s.fetch = none := by
    cases phase <;> simp_all [State.fetch, State.phasePrimitive]
  rw [step_resume h hf hs]
  have hr : s.resume = s.issue p := by
    cases phase <;> simp_all [State.resume, State.phasePrimitive]
  rw [hr, State.issue, s.takeAnswer_cons ha]

theorem step_sleep {c : Instr} {op : RegOp} {ms k : Nat} {task : Task} (h : s.running)
    (hs : s.seq = .busy c (.chunk op (.sleep ms k) task)) :
    step s = .next { s with
      trace := s.trace ++ [.sleep ms], seq := .busy c (.chunk op (.readyPoll k) task) } := by
  rw [step_resume h (by simp [State.fetch, hs]) hs]
  simp only [State.resume, hs]
  rw [s.emit_goto hs]

theorem step_opDone {c : Instr} {bytes : List Byte} {task : Task} (h : s.running)
    (hs : s.seq = .busy c (.opDone bytes task)) : step s = .next (s.continueTask bytes task) := by
  rw [step_resume h (by simp [State.fetch, hs]) hs]
  simp [State.resume, hs]

theorem step_raised {c : Instr} {e : Err} {task : Task} (h : s.running)
    (hs : s.seq = .busy c (.raised e task)) : step s = .next (s.raiseErr e) := by
  rw [step_resume h (by simp [State.fetch, hs]) hs]
  simp [State.resume, hs]

/-! ### Steps taken together -/

theorem steps_succ {n : Nat} {t : State} (h : step s = .next t) : steps (n + 1) s = steps n t := by
  simp [steps, h]

theorem steps_add {m n : Nat} {s t : State} (h : steps m s = .next t) :
    steps (m + n) s = steps n t := by
  induction m generalizing s with
  | zero => cases h; rw [Nat.zero_add]
  | succ m ih =>
    rw [Nat.add_right_comm, steps]
    unfold steps at h
    split at h
    · exact ih h
    · cases h
    · cases h

theorem State.reaches_refl : s.reaches s := ⟨0, rfl⟩

theorem State.reaches_trans {t u : State} (h : s.reaches t) (h' : t.reaches u) : s.reaches u := by
  obtain ⟨m, hm⟩ := h
  obtain ⟨n, hn⟩ := h'
  exact ⟨m + n, by rw [steps_add hm, hn]⟩

theorem State.reaches_step {t : State} (h : step s = .next t) : s.reaches t :=
  ⟨1, by rw [steps_succ h]; rfl⟩

/-! ### Commands -/

variable (s)

theorem runCommand_idle (cmd : Instr) (begin : State → State) (h : s.seq = .idle) :
    runCommand cmd begin s = .next (s.accept cmd) := by
  simp [runCommand, h]

theorem runCommand_start (cmd : Instr) (begin : State → State) (h : s.seq = .busy cmd .start) :
    runCommand cmd begin s = .next (begin s) := by
  simp [runCommand, h]

theorem runCommand_held (cmd : Instr) (begin : State → State) {c : Instr} {pos : Pos}
    (h : s.seq = .busy c pos) (hc : cmd ≠ c ∨ pos ≠ .start) :
    runCommand cmd begin s = .next s := by
  unfold runCommand
  rw [h]
  split
  · cases ‹Seq.busy c pos = .idle›
  · rename_i h'
    cases h'
    rw [if_neg (fun e => hc.elim (fun hn => hn e.symm) (fun hn => hn rfl))]
  · rfl

/-- Everything a host command that is issued can do. -/
theorem runCommand_cases {cmd : Instr} {begin : State → State} {t : State}
    (h : runCommand cmd begin s = .next t) :
    (s.seq = .idle ∧ t = s.accept cmd) ∨ (s.seq = .busy cmd .start ∧ t = begin s) ∨
      ((∃ c pos, s.seq = .busy c pos ∧ (cmd ≠ c ∨ pos ≠ .start)) ∧ t = s) := by
  cases hs : s.seq with
  | idle =>
    rw [runCommand_idle _ _ _ hs] at h
    cases h; exact .inl ⟨rfl, rfl⟩
  | busy c pos =>
    by_cases hc : cmd = c ∧ pos = .start
    · obtain ⟨rfl, rfl⟩ := hc
      rw [runCommand_start _ _ _ hs] at h
      cases h; exact .inr (.inl ⟨rfl, rfl⟩)
    · have hc : cmd ≠ c ∨ pos ≠ .start := by
        by_cases h1 : cmd = c
        · exact .inr fun h2 => hc ⟨h1, h2⟩
        · exact .inl h1
      rw [runCommand_held _ _ _ hs hc] at h
      cases h; exact .inr (.inr ⟨⟨c, pos, rfl, hc⟩, rfl⟩)

end Sys2Proof.Machine
end

