-- ==== Sys2Proof/Laws/Handshake.lean ====
section
/-! SUPPORT. The handshake on a channel that answers promptly: what the steps over the answers of
SEND and of RECEIVE leave (42_handshake.md R125, R130). -/

namespace Sys2Proof.Machine

variable {s : State} {cmd : Instr} {op : RegOp} {task : Task}

/-- `s` with the sequencer at `phase` of the same exchange, the events `es` emitted and the answers
`as` left. -/
def State.inPhase (s : State) (cmd : Instr) (op : RegOp) (phase : Phase) (task : Task)
    (es : List Event) (as : List Answer) : State :=
  { s with seq := .busy cmd (.chunk op phase task), trace := s.trace ++ es, answers := as }

theorem State.inPhase_self {phase : Phase} (h : s.seq = .busy cmd (.chunk op phase task)) :
    s.inPhase cmd op phase task [] s.answers = s := by
  cases s; simp_all [State.inPhase]

/-- One completed primitive moves the exchange to the phase `advance` says. -/
theorem State.reaches_phase {phase phase' : Phase} {p : Primitive} {a : Answer} {bytes : List Byte}
    (h : s.running) (hp : s.phasePrimitive phase = some p) (ho : p.outcome a = .ok bytes)
    (hadv : ∀ t : State, t.cfg = s.cfg → t.mps = s.mps →
      t.advance op phase task bytes = t.goto (.chunk op phase' task))
    (es : List Event) (as : List Answer) :
    (s.inPhase cmd op phase task es (a :: as)).reaches
      (s.inPhase cmd op phase' task (es ++ [p.event (.ok bytes)]) as) := by
  refine State.reaches_step ?_
  rw [step_primitive (s := s.inPhase cmd op phase task es (a :: as)) (p := p) h rfl hp rfl,
    State.feed_ok _ ho (cmd := cmd) (op := op) (phase := phase) (task := task) rfl,
    hadv (({ s.inPhase cmd op phase task es (a :: as) with answers := as } : State).emit
      (p.event (.ok bytes))) rfl rfl,
    State.emit_goto _ (cmd := cmd) (q := .chunk op phase task) rfl]
  simp [State.inPhase]

/-- The steps over the answers of SEND, from any number of missed busy polls (R125). -/
theorem State.reaches_send {k : Nat} (h : s.running)
    (hb : s.cfg.vBusyClear.length = s.cfg.hsWidth) (hx : s.cfg.vTxConsumed.length = s.cfg.hsWidth)
    (es : List Event) (as : List Answer) :
    (s.inPhase cmd op (.busyPoll k) task es (sendAnswers s.cfg ++ as)).reaches
      (s.inPhase cmd op (.readyPoll 0) task (es ++ s.sendEvents s.txBuf) as) := by
  simp only [sendAnswers, List.cons_append, List.nil_append]
  refine cast (congrArg (State.reaches _) ?_)
    (State.reaches_trans (State.reaches_phase h rfl (by rw [Primitive.outcome_read, if_pos hb])
      (phase' := .stage) (fun t ht _ => by simp [State.advance, ht]) es _) <|
    State.reaches_trans (State.reaches_phase h rfl rfl (fun _ _ _ => rfl) _ _) <|
    State.reaches_trans (State.reaches_phase h rfl rfl (fun _ _ _ => rfl) _ _) <|
    State.reaches_trans (State.reaches_phase h rfl rfl (fun _ _ _ => rfl) _ _) <|
    State.reaches_trans (State.reaches_phase h rfl (by rw [Primitive.outcome_read, if_pos hx])
      (phase' := .txClear) (fun t ht _ => by simp [State.advance, ht]) _ _) <|
    State.reaches_phase h rfl rfl (fun _ _ _ => rfl) _ _)
  simp [State.sendEvents, Primitive.event, State.busyAddr, State.txAddr]

/-- The steps over the answers of RECEIVE, from any number of missed response-ready polls (R130): the
packet `q` stands before DECODE. -/
theorem State.reaches_receive {k : Nat} {q : List Byte} (h : s.running)
    (hr : s.cfg.vRxReady.length = s.cfg.hsWidth) (hi : s.cfg.vRxIdle.length = s.cfg.hsWidth)
    (hl : q.length < 256 ^ s.cfg.lenWidth) (hm : q.length ≤ s.mps.toNat)
    (es : List Event) (as : List Answer) :
    (s.inPhase cmd op (.readyPoll k) task es (receiveAnswers s.cfg q ++ as)).reaches
      (s.inPhase cmd op (.decode q) task (es ++ s.receiveEvents q) as) := by
  have hd : dec s.cfg.lenOrder (enc s.cfg.lenOrder s.cfg.lenWidth q.length) = q.length := by
    rw [dec_enc, Nat.mod_eq_of_lt hl]
  have ready := fun es as => State.reaches_phase (cmd := cmd) (op := op) (task := task)
    (phase := .readyPoll k) (phase' := .readLength) h rfl
    (by rw [Primitive.outcome_read, if_pos hr]) (fun t ht _ => by simp [State.advance, ht]) es as
  have length := fun phase' (hadv : ∀ t : State, t.cfg = s.cfg → t.mps = s.mps →
      t.advance op .readLength task (enc s.cfg.lenOrder s.cfg.lenWidth q.length) =
        t.goto (.chunk op phase' task)) es as =>
    State.reaches_phase (cmd := cmd) h rfl (by rw [Primitive.outcome_read, if_pos (length_enc _ _ _)])
      hadv es as
  have consumed := fun es as => State.reaches_phase (cmd := cmd) (op := op) (task := task)
    (phase := .rxConsumed q) (phase' := .idlePoll q 0) (a := .done []) h rfl rfl
    (fun _ _ _ => rfl) es as
  have idle := fun es as => State.reaches_phase (cmd := cmd) (op := op) (task := task)
    (phase := .idlePoll q 0) (phase' := .rxClear q) h rfl
    (by rw [Primitive.outcome_read, if_pos hi]) (fun t ht _ => by simp [State.advance, ht]) es as
  have clear := fun es as => State.reaches_phase (cmd := cmd) (op := op) (task := task)
    (phase := .rxClear q) (phase' := .decode q) (a := .done []) h rfl rfl
    (fun _ _ _ => rfl) es as
  have tail := fun es as => State.reaches_trans (consumed es _)
    (State.reaches_trans (idle _ _) (clear _ as))
  by_cases hq : q = []
  · subst hq
    simp only [receiveAnswers, if_pos, List.cons_append, List.nil_append]
    refine cast (congrArg (State.reaches _) ?_) (State.reaches_trans (ready es _)
      (State.reaches_trans (length (.rxConsumed []) (fun t ht ht' => ?_) _ _) (tail _ as)))
    · simp [State.receiveEvents, Primitive.event, State.rxAddr]
    · simp only [State.advance, State.responseLength, ht, ht', hd]
      rw [if_neg (by omega), if_neg (by simp)]
  · have hpos : 0 < q.length := List.length_pos_of_ne_nil hq
    simp only [receiveAnswers, if_neg hq, List.cons_append, List.nil_append]
    refine cast (congrArg (State.reaches _) ?_) (State.reaches_trans (ready es _)
      (State.reaches_trans (length (.readBuffer q.length) (fun t ht ht' => ?_) _ _)
        (State.reaches_trans (State.reaches_phase (phase' := .rxConsumed q) h rfl
          (by rw [Primitive.outcome_read, if_pos rfl]) (fun _ _ _ => rfl) _ _) (tail _ as))))
    · simp [State.receiveEvents, Primitive.event, State.rxAddr, hq]
    · simp only [State.advance, State.responseLength, ht, ht', hd]
      rw [if_neg (by omega), if_pos hpos]

end Sys2Proof.Machine
end

