-- ==== Sys2Proof/Laws/PerInstr.lean ====
section
/-! SUPPORT. The family EncodedLength: the number of bytes of each instruction's encoding
(30_encoding.md R67, R82, R91). -/

namespace Sys2Proof.Laws.EncodedLength

/-- The bytes of an encoding: 16 and the data of a host frame, 16 and the payload of a packet (12 for
a ReadMem request, 8 and the data for a WriteMem request), 8 for an OperationExecute value. -/
def encodedLength : Instr → Nat
  | .writeReg _ data | .crcCompute data | .fileWrite _ data => 16 + data.length
  | .linkInit .. | .readReg .. | .fileOpen .. | .fileRemove .. | .fileLength .. | .fileRead ..
  | .handleDup .. | .handleDrop .. | .illegalHostOpcode .. => 16
  | .readMemRequest .. => 28
  | .writeMemRequest _ data => 24 + data.length
  | .readMemAck a | .writeMemAck a | .pendingAck a | .undefinedCommandId _ a =>
    16 + a.payload.length
  | .opOpen .. | .opClose .. | .opRead .. | .opWrite .. | .opDelete .. => 8

/-- Every encoding of the instruction has its length. -/
def Statement (i : Instr) : Prop :=
  ∀ (cfg : Config) (reqId : Word16), (encode cfg reqId i).length = encodedLength i

/-- A host frame is its header of 16 bytes and its data (R87). -/
theorem length_hostFrame (op h sel mode : Byte) (addr : Word64) (len : Word32) (data : List Byte) :
    (hostFrame op h sel mode addr len data).length = 16 + data.length := by
  simp [hostFrame]; omega

theorem linkInit (cap hs buf lenreg : Word16) : Statement (.linkInit cap hs buf lenreg) := by
  intro cfg reqId
  simp [encode, encodedLength, length_hostFrame]

theorem writeReg (addr : Word64) (data : List Byte) : Statement (.writeReg addr data) := by
  intro cfg reqId
  simp [encode, encodedLength, length_hostFrame]

theorem readReg (addr : Word64) (len : Word32) : Statement (.readReg addr len) := by
  intro cfg reqId
  simp [encode, encodedLength, length_hostFrame]

theorem crcCompute (data : List Byte) : Statement (.crcCompute data) := by
  intro cfg reqId
  simp [encode, encodedLength, length_hostFrame]

theorem fileOpen (sel mode : Byte) : Statement (.fileOpen sel mode) := by
  intro cfg reqId
  simp [encode, encodedLength, length_hostFrame]

theorem fileRemove (sel : Byte) : Statement (.fileRemove sel) := by
  intro cfg reqId
  simp [encode, encodedLength, length_hostFrame]

theorem fileLength (h : Byte) : Statement (.fileLength h) := by
  intro cfg reqId
  simp [encode, encodedLength, length_hostFrame]

theorem fileWrite (h : Byte) (data : List Byte) : Statement (.fileWrite h data) := by
  intro cfg reqId
  simp [encode, encodedLength, length_hostFrame]

theorem fileRead (h : Byte) (maxLen : Word32) : Statement (.fileRead h maxLen) := by
  intro cfg reqId
  simp [encode, encodedLength, length_hostFrame]

theorem handleDup (h : Byte) : Statement (.handleDup h) := by
  intro cfg reqId
  simp [encode, encodedLength, length_hostFrame]

theorem handleDrop (h : Byte) : Statement (.handleDrop h) := by
  intro cfg reqId
  simp [encode, encodedLength, length_hostFrame]

theorem illegalHostOpcode (op : Byte) : Statement (.illegalHostOpcode op) := by
  intro cfg reqId
  simp [encode, encodedLength, length_hostFrame]

theorem readMemRequest (addr : Word64) (n : Word16) : Statement (.readMemRequest addr n) := by
  intro cfg reqId
  simp [encode, encodedLength]

theorem readMemAck (a : Ack) : Statement (.readMemAck a) := by
  intro cfg reqId
  simp [encode, encodedLength]

theorem writeMemRequest (addr : Word64) (data : List Byte) : Statement (.writeMemRequest addr data) := by
  intro cfg reqId
  simp [encode, encodedLength]

theorem writeMemAck (a : Ack) : Statement (.writeMemAck a) := by
  intro cfg reqId
  simp [encode, encodedLength]

theorem pendingAck (a : Ack) : Statement (.pendingAck a) := by
  intro cfg reqId
  simp [encode, encodedLength]

theorem undefinedCommandId (cmd : Word16) (a : Ack) : Statement (.undefinedCommandId cmd a) := by
  intro cfg reqId
  simp [encode, encodedLength]

theorem opOpen (mode : Word16) (sel : Word32) : Statement (.opOpen mode sel) := by
  intro cfg reqId
  simp [encode, encodedLength, operationBytes]

theorem opClose (mode : Word16) (sel : Word32) : Statement (.opClose mode sel) := by
  intro cfg reqId
  simp [encode, encodedLength, operationBytes]

theorem opRead (mode : Word16) (sel : Word32) : Statement (.opRead mode sel) := by
  intro cfg reqId
  simp [encode, encodedLength, operationBytes]

theorem opWrite (mode : Word16) (sel : Word32) : Statement (.opWrite mode sel) := by
  intro cfg reqId
  simp [encode, encodedLength, operationBytes]

theorem opDelete (mode : Word16) (sel : Word32) : Statement (.opDelete mode sel) := by
  intro cfg reqId
  simp [encode, encodedLength, operationBytes]

end Sys2Proof.Laws.EncodedLength
end

