-- ==== Sys2Proof/Machine/Assembly.lean ====
section
/-! DEFINITION. The assembler syntax of 30_encoding.md R92: how a host command and its result are
written. No rule of the block reads it. -/

namespace Sys2Proof.Machine

/-- Hexadecimal digits, without leading zeros. -/
def hexText (n : Nat) : String := "0x" ++ String.ofList ((Nat.toDigits 16 n).map Char.toUpper)

/-- One byte as two hexadecimal digits. -/
def byteText (b : Byte) : String :=
  String.ofList [Nat.digitChar (b.toNat / 16), Nat.digitChar (b.toNat % 16)]

/-- A byte string in brackets. -/
def bytesText (bytes : List Byte) : String :=
  "[" ++ " ".intercalate (bytes.map byteText) ++ "]"

/-- A mode operand: `R` = 1, `W` = 2 (R92). -/
def modeText (mode : Byte) : String :=
  if mode = 1 then "R" else if mode = 2 then "W" else toString mode.toNat

/-- A host command in the syntax of R92; none for what is no host command. -/
def asmText : Instr → Option String
  | .linkInit cap hs buf lenreg => some ("LINK_INIT cap=" ++ toString cap.toNat ++ ", hs=" ++
      hexText hs.toNat ++ ", buf=" ++ hexText buf.toNat ++ ", lenreg=" ++ hexText lenreg.toNat)
  | .writeReg addr data =>
    some ("WRITE_REG addr=" ++ hexText addr.toNat ++ ", data=" ++ bytesText data)
  | .readReg addr len =>
    some ("READ_REG addr=" ++ hexText addr.toNat ++ ", n=" ++ toString len.toNat)
  | .crcCompute data => some ("CRC_COMPUTE data=" ++ bytesText data)
  | .fileOpen sel mode =>
    some ("FILE_OPEN sel=" ++ hexText sel.toNat ++ ", mode=" ++ modeText mode)
  | .fileRemove sel => some ("FILE_REMOVE sel=" ++ hexText sel.toNat)
  | .fileLength h => some ("FILE_LENGTH h=" ++ toString h.toNat)
  | .fileWrite h data => some ("FILE_WRITE h=" ++ toString h.toNat ++ ", data=" ++ bytesText data)
  | .fileRead h maxLen =>
    some ("FILE_READ h=" ++ toString h.toNat ++ ", max=" ++ toString maxLen.toNat)
  | .handleDup h => some ("HANDLE_DUP h=" ++ toString h.toNat)
  | .handleDrop h => some ("HANDLE_DROP h=" ++ toString h.toNat)
  | .illegalHostOpcode _ | .readMemRequest .. | .readMemAck .. | .writeMemRequest ..
  | .writeMemAck .. | .pendingAck .. | .undefinedCommandId .. | .opOpen .. | .opClose ..
  | .opRead .. | .opWrite .. | .opDelete .. => none

/-- The name of a subcode with its kind (R191), as R92 writes a result. -/
def errText : Err → String
  | .writeFailed => "CHANNEL_IO(WRITE_FAILED)"
  | .readFailed => "CHANNEL_IO(READ_FAILED)"
  | .badCommandId => "PROTOCOL_MISMATCH(BAD_COMMAND_ID)"
  | .badStatus => "PROTOCOL_MISMATCH(BAD_STATUS)"
  | .badRequestId => "PROTOCOL_MISMATCH(BAD_REQUEST_ID)"
  | .responseTooLong => "PROTOCOL_MISMATCH(RESPONSE_TOO_LONG)"
  | .badFrameLength => "PROTOCOL_MISMATCH(BAD_FRAME_LENGTH)"
  | .crcMismatch => "PROTOCOL_MISMATCH(CRC_MISMATCH)"
  | .shortPending => "PROTOCOL_MISMATCH(SHORT_PENDING)"
  | .badReadLength => "PROTOCOL_MISMATCH(BAD_READ_LENGTH)"
  | .fileExists => "VALIDATION(FILE_EXISTS)"
  | .tooLarge => "VALIDATION(TOO_LARGE)"
  | .bufferTooSmall => "VALIDATION(BUFFER_TOO_SMALL)"
  | .wrongMode => "VALIDATION(WRONG_MODE)"
  | .unknownSelector => "VALIDATION(UNKNOWN_SELECTOR)"
  | .fileEmpty => "VALIDATION(FILE_EMPTY)"
  | .openNotConfirmed => "VALIDATION(OPEN_NOT_CONFIRMED)"
  | .badHandle => "VALIDATION(BAD_HANDLE)"
  | .staleHandle => "VALIDATION(STALE_HANDLE)"
  | .linkDown => "VALIDATION(LINK_DOWN)"
  | .badMode => "VALIDATION(BAD_MODE)"
  | .noFreeHandle => "VALIDATION(NO_FREE_HANDLE)"
  | .badCapacity => "VALIDATION(BAD_CAPACITY)"
  | .handlesLive => "VALIDATION(HANDLES_LIVE)"
  | .refcountOverflow => "VALIDATION(REFCOUNT_OVERFLOW)"
  | .pollTimeout => "TIMEOUT(POLL)"
  | .pendingTimeout => "TIMEOUT(PENDING)"
  | .unknownOpcode => "ILLEGAL_COMMAND(UNKNOWN_OPCODE)"

/-- The result of a command: `-> OK value` or `-> KIND(SUBCODE)` (R92). -/
def resultText (result : Except Err Word32) : String :=
  match result with
  | .ok value => "-> OK " ++ toString value.toNat
  | .error e => "-> " ++ errText e

end Sys2Proof.Machine
end

