-- ==== Sys2Proof/Tests/Slice0.lean ====
section
/-! SUPPORT. Tests: ill-formed terms refused; the decoding of words written out in the spec; single
steps on the vectors of 95_test_vectors.md; and for every statement with hypotheses a witness that
meets them. Expected bytes are the spec's own. -/

namespace Sys2Proof.Tests

open Sys2Proof.Machine

-- One theorem at a time: kernel checks that wait for each other would hold a thread each.
set_option Elab.async false

/-! ### Ill-formed instructions -/

def zeros (n : Nat) : List Byte := List.replicate n 0

theorem length_zeros (n : Nat) : (zeros n).length = n := List.length_replicate

def ackOf (payload : List Byte) : Ack :=
  { preamble := 0x0100, crc := 0, channelId := 0, status := 0, requestId := 0, payload := payload }

theorem test_wf_host_data :
    (Instr.writeReg 0 (zeros (2 ^ 32))).wf = false ∧ (Instr.crcCompute (zeros (2 ^ 32))).wf = false ∧
      (Instr.fileWrite 0 (zeros (2 ^ 32))).wf = false := by
  simp [Instr.wf, hostDataFits, length_zeros]

theorem test_wf_illegal_opcode :
    (Instr.illegalHostOpcode 0x01).wf = false ∧ (Instr.illegalHostOpcode 0x16).wf = false ∧
      (Instr.illegalHostOpcode 0x05).wf = true := by
  decide

theorem test_wf_request :
    (Instr.readMemRequest 0 0).wf = false ∧ (Instr.readMemRequest 0 1009).wf = false ∧
      (Instr.readMemRequest 0 1008).wf = true ∧ (Instr.writeMemRequest 0 []).wf = false ∧
      (Instr.writeMemRequest 0 (zeros 1001)).wf = false ∧
      (Instr.writeMemRequest 0 (zeros 1000)).wf = true := by
  simp [Instr.wf, readRequestFits, writeRequestFits, length_zeros]

theorem test_wf_ack :
    (Instr.readMemAck (ackOf (zeros 65536))).wf = false ∧
      (Instr.writeMemAck (ackOf (zeros 65536))).wf = false ∧
      (Instr.pendingAck (ackOf (zeros 65536))).wf = false ∧
      (Instr.undefinedCommandId 0x0804 (ackOf (zeros 65536))).wf = false ∧
      (Instr.undefinedCommandId 0x0803 (ackOf [])).wf = false ∧
      (Instr.undefinedCommandId 0x0804 (ackOf [])).wf = true := by
  simp [Instr.wf, ackFits, length_zeros, ackOf, ackCommandIds]

/-! ### Words of the spec -/

/-- The host frames of 95_test_vectors.md section 7, and an unused field that is not zero. -/
theorem test_decode_host_frames :
    decode .ex .host [0x01, 0, 0, 0, 0x04, 0x00, 0x10, 0x00, 0x20, 0x00, 0x10, 0x08, 0, 0, 0, 0] =
        .ok (.linkInit 1024 0x1000 0x2000 0x1008) ∧
      decode .ex .host
          [0x02, 0, 0, 0, 0, 0, 0, 0, 0xd0, 0x00, 0x51, 0x00, 0, 0, 0, 0x04, 0xe8, 0x03, 0, 0] =
        .ok (.writeReg 0xD0005100 [0xe8, 0x03, 0x00, 0x00]) ∧
      decode .ex .host [0x03, 0, 0, 0, 0, 0, 0, 0, 0xd0, 0x00, 0x01, 0x00, 0, 0, 0, 0x08] =
        .ok (.readReg 0xD0000100 8) ∧
      decode .ex .host
          [0x04, 0, 0, 0, 0, 0, 0, 0, 0, 0, 0, 0, 0, 0, 0, 0x09, 0x31, 0x32, 0x33, 0x34, 0x35, 0x36,
            0x37, 0x38, 0x39] =
        .ok (.crcCompute [0x31, 0x32, 0x33, 0x34, 0x35, 0x36, 0x37, 0x38, 0x39]) ∧
      decode .ex .host [0x05, 0, 0, 0, 0, 0, 0, 0, 0, 0, 0, 0, 0, 0, 0, 0] =
        .ok (.illegalHostOpcode 0x05) := by
  decide +kernel

theorem test_decode_file_frames :
    decode .ex .host [0x10, 0, 0x11, 0x02, 0, 0, 0, 0, 0, 0, 0, 0, 0, 0, 0, 0] =
        .ok (.fileOpen 0x11 2) ∧
      decode .ex .host [0x11, 0, 0x11, 0, 0, 0, 0, 0, 0, 0, 0, 0, 0, 0, 0, 0] =
        .ok (.fileRemove 0x11) ∧
      decode .ex .host [0x12, 0x01, 0xAA, 0, 0, 0, 0, 0, 0, 0, 0, 0, 0, 0, 0, 0x05] =
        .ok (.fileLength 1) ∧
      decode .ex .host [0x13, 0, 0, 0, 0, 0, 0, 0, 0, 0, 0, 0, 0, 0, 0, 0x02, 0x48, 0x49] =
        .ok (.fileWrite 0 [0x48, 0x49]) ∧
      decode .ex .host [0x14, 0, 0, 0, 0, 0, 0, 0, 0, 0, 0, 0, 0, 0, 0, 0x10] =
        .ok (.fileRead 0 16) ∧
      decode .ex .host [0x15, 0, 0, 0, 0, 0, 0, 0, 0, 0, 0, 0, 0, 0, 0, 0] = .ok (.handleDup 0) ∧
      decode .ex .host [0x16, 0x01, 0, 0, 0, 0, 0, 0, 0, 0, 0, 0, 0, 0, 0, 0] =
        .ok (.handleDrop 1) := by
  decide +kernel

/-- The ReadMem request of section 2.2. -/
def readRequestWord : List Byte :=
  [0x00, 0x01, 0x2e, 0x86, 0x1d, 0xef, 0x00, 0x00, 0x40, 0x00, 0x08, 0x00, 0x00, 0x0c, 0x00, 0x01,
    0x00, 0x00, 0x00, 0x00, 0xd0, 0x00, 0x01, 0x00, 0x00, 0x00, 0x00, 0x08]

/-- The WriteMem request of section 2.2 (R110's example). -/
def writeRequestWord : List Byte :=
  [0x00, 0x01, 0xe9, 0x62, 0xda, 0x63, 0x00, 0x00, 0x40, 0x00, 0x08, 0x02, 0x00, 0x0c, 0x00, 0x01,
    0x00, 0x00, 0x00, 0x00, 0xd0, 0x00, 0x51, 0x00, 0xe8, 0x03, 0x00, 0x00]

/-- The acknowledgments of section 2.3: WriteMem, Pending (100 ms), ReadMem. -/
def writeAckWord : List Byte :=
  [0x00, 0x01, 0xca, 0x5c, 0x33, 0xb3, 0x00, 0x00, 0x00, 0x00, 0x08, 0x03, 0x00, 0x04, 0x00, 0x01,
    0x00, 0x00, 0x00, 0x04]

def pendingAckWord : List Byte :=
  [0x00, 0x01, 0xf4, 0xf4, 0x2b, 0x61, 0x00, 0x00, 0x00, 0x00, 0x08, 0x05, 0x00, 0x04, 0x00, 0x01,
    0x00, 0x00, 0x00, 0x64]

def readAckWord : List Byte :=
  [0x00, 0x01, 0xff, 0x9c, 0x32, 0x63, 0x00, 0x00, 0x00, 0x00, 0x08, 0x01, 0x00, 0x08, 0x00, 0x01,
    0x01, 0x00, 0x00, 0x00, 0x11, 0x00, 0x00, 0x00]

def writeAck : Ack := { ackOf [0, 0, 0, 4] with crc := 0xca5c33b3, requestId := 1 }
def pendingAck : Ack := { ackOf [0, 0, 0, 0x64] with crc := 0xf4f42b61, requestId := 1 }
def readAck : Ack := { ackOf [1, 0, 0, 0, 0x11, 0, 0, 0] with crc := 0xff9c3263, requestId := 1 }

theorem test_decode_packets :
    decode .ex .request readRequestWord = .ok (.readMemRequest 0xD0000100 8) ∧
      decode .ex .request writeRequestWord = .ok (.writeMemRequest 0xD0005100 [0xe8, 0x03, 0, 0]) ∧
      decode .ex .received writeAckWord = .ok (.writeMemAck writeAck) ∧
      decode .ex .received pendingAckWord = .ok (.pendingAck pendingAck) ∧
      decode .ex .received readAckWord = .ok (.readMemAck readAck) ∧
      decode .ex .received (writeAckWord.set 11 0x04) = .ok (.undefinedCommandId 0x0804 writeAck) ∧
      decode .ex .received (writeAckWord.set 13 0x05) = .error .badFrameLength ∧
      decode .ex .received (writeAckWord.take 15) = .error .badFrameLength := by
  decide +kernel

/-- The values of X12. -/
theorem test_decode_operations :
    decode .ex .operation [0x00, 0x00, 0x02, 0x00, 0x11, 0x00, 0x00, 0x00] = .ok (.opOpen 2 0x11) ∧
      decode .ex .operation [0x01, 0, 0, 0, 0x11, 0, 0, 0] = .ok (.opClose 0 0x11) ∧
      decode .ex .operation [0x02, 0, 0, 0, 0x11, 0, 0, 0] = .ok (.opRead 0 0x11) ∧
      decode .ex .operation [0x03, 0, 0, 0, 0x11, 0, 0, 0] = .ok (.opWrite 0 0x11) ∧
      decode .ex .operation [0x04, 0, 0, 0, 0x11, 0, 0, 0] = .ok (.opDelete 0 0x11) ∧
      decode { Config.ex with regOrder := .be } .operation [0, 0, 0, 0x11, 0, 0x02, 0, 0] =
        .ok (.opOpen 2 0x11) ∧
      decode .ex .operation [0x05, 0, 0, 0, 0x11, 0, 0, 0] = .error .unknownOperation := by
  decide +kernel

/-- The encoder writes the same words, the CRC included (sections 2.2 and 2.3, X12). -/
theorem test_encode_words :
    encode .ex 1 (.readMemRequest 0xD0000100 8) = readRequestWord ∧
      encode .ex 1 (.writeMemRequest 0xD0005100 [0xe8, 0x03, 0, 0]) = writeRequestWord ∧
      encode .ex 1 (.writeMemAck writeAck) = writeAckWord ∧
      encode .ex 1 (.opClose 0 0x11) = [0x01, 0, 0, 0, 0x11, 0, 0, 0] := by
  decide +kernel

/-- One word of every row of the opcode table, in the table's numbering. -/
theorem test_table_words :
    [1, 2, 3, 4, 0x10, 0x11, 0x12, 0x13, 0x14, 0x15, 0x16, 0].map (decodeTableWord 8) =
        [some (.linkInit 0 0 0 0), some (.writeReg 0 []), some (.readReg 0 0), some (.crcCompute []),
          some (.fileOpen 0 0), some (.fileRemove 0), some (.fileLength 0), some (.fileWrite 0 []),
          some (.fileRead 0 0), some (.handleDup 0), some (.handleDrop 0),
          some (.illegalHostOpcode 0)] ∧
      [0x0800, 0x0801, 0x0802, 0x0803, 0x0805, 0x0804].map (decodeTableWord 16) =
        [some (.readMemRequest 0 0), some (.readMemAck (ackOf [])), some (.writeMemRequest 0 []),
          some (.writeMemAck (ackOf (zeros 4))), some (.pendingAck (ackOf (zeros 4))),
          some (.undefinedCommandId 0x0804 (ackOf []))] ∧
      [0, 1, 2, 3, 4].map (decodeTableWord 64) =
        [some (.opOpen 0 0), some (.opClose 0 0), some (.opRead 0 0), some (.opWrite 0 0),
          some (.opDelete 0 0)] := by
  decide +kernel

/-! ### CRC vectors (section 2.1) -/

theorem test_crc_compute :
    crc32jam [0x31, 0x32, 0x33, 0x34, 0x35, 0x36, 0x37, 0x38, 0x39] = 0x340BC6D9 ∧
      crc32jam [0x61] = 0x174841BC ∧ crc32jam [0xff, 0xff, 0xff, 0xff] = 0 := by
  decide +kernel

/-! ### Single steps -/

/-- The block after LINK_INIT of configuration EX. -/
def linked : State :=
  { State.reset with
    linkUp := true, mps := 1024, aHs := 0x1000, aBuf := 0x2000, aLen := 0x1008 }

/-- A handle of selector 0x11. -/
def handleOf (mode : BitVec 2) (stale : Bool) (refcnt : Word16) : Handle :=
  { valid := true, stale := stale, sel := 0x11, mode := mode, refcnt := refcnt }

/-- `linked` with these entries, the others free. -/
def withHandles (hs : List Handle) : State :=
  { linked with handles := hs ++ List.replicate (4 - hs.length) Handle.reset }

/-- A good acknowledgment with its CRC. -/
def goodAck (cmd id : Word16) (payload : List Byte) : Ack :=
  { ackOf payload with
    requestId := id
    crc := crc32jam (coveredBytes cmd { ackOf payload with requestId := id }) }

def wAck (id : Word16) : Ack := goodAck 0x0803 id [0, 0, 0, 0]
def rAck (payload : List Byte) : Ack := goodAck 0x0801 1 payload

/-- `s` with a prompt channel that plays `xs`. -/
def playing (s : State) (xs : List Action) : State := { s with answers := answersOf s.cfg xs }

/-- The state and last event of an outcome: IDLE or not, and the response frame. -/
def responseOf (o : Host.Outcome State Fault Refusal) : Option (List Byte) :=
  match o with
  | .next t =>
    match t.seq, t.trace.getLast? with
    | .idle, some (.response f) => some f
    | _, _ => none
  | _ => none

/-- The next state of an outcome, or `State.reset`. -/
def after (o : Host.Outcome State Fault Refusal) : State :=
  match o with
  | .next t => t
  | _ => State.reset

/-- `s` with the command `i` accepted. -/
def begun (i : Instr) (s : State) : State := { s with seq := .busy i .start }

/-- The first line of the command `i`, accepted at `s`. -/
def first (i : Instr) (s : State) : Host.Outcome State Fault Refusal := exec i (begun i s)

/-- `s` within the command `i`, at position `pos`. -/
def within (i : Instr) (pos : Pos) (s : State) : State := { s with seq := .busy i pos }

/-- The outcome is the next state `t`. -/
def endsIn (o : Host.Outcome State Fault Refusal) (t : State) : Bool :=
  match o with
  | .next u => decide (u = t)
  | _ => false

/-- The outcome is a next state. -/
def goesOn (o : Host.Outcome State Fault Refusal) : Bool :=
  match o with
  | .next _ => true
  | _ => false

/-- The outcome is the refusal of the configuration. -/
def refusesConfig (o : Host.Outcome State Fault Refusal) : Bool :=
  match o with
  | .refused .badConfiguration => true
  | _ => false

/-- V1: the frame of LINK_INIT is accepted; its first line establishes the link. V2: BAD_CAPACITY. -/
theorem test_link_init :
    endsIn (step { State.reset with
        hostIn := [0x01, 0, 0, 0, 0x04, 0, 0x10, 0, 0x20, 0, 0x10, 0x08, 0, 0, 0, 0] })
        (begun (.linkInit 1024 0x1000 0x2000 0x1008) State.reset) ∧
      endsIn (first (.linkInit 1024 0x1000 0x2000 0x1008) State.reset)
        { linked with trace := [.response [0, 0, 0, 0, 0, 0, 4, 0]], respValue := 1024 } ∧
      responseOf (first (.linkInit 27 0x1000 0x2000 0x1008) State.reset) =
        some [3, 13, 0, 0, 0, 0, 0, 0] := by
  decide +kernel

/-- V5: LINK_INIT with a live handle. -/
theorem test_link_init_handles_live :
    responseOf (first (.linkInit 1024 0 0 0) (withHandles [handleOf 2 false 1])) =
      some [3, 14, 0, 0, 0, 0, 0, 0] := by
  decide +kernel

/-- V12: at `cap = 28` the first line of WRITE_REG makes chunks of 4, 4 and 1 bytes. -/
theorem test_write_reg_chunks :
    (after (first (.writeReg 0x100 (zeros 9)) { linked with mps := 28 })).seq =
      .busy (.writeReg 0x100 (zeros 9))
        (.chunk (.write 0x100 (zeros 9) ⟨0, 4⟩ [⟨4, 4⟩, ⟨8, 1⟩] 1 0) .encode (.writeReg 9)) := by
  decide +kernel

/-- V27, V28: 1009 bytes are read in 1008 and 1; R151's example ends with its bytes. -/
theorem test_read_reg :
    (after (first (.readReg 0x100 1009) linked)).seq =
        .busy (.readReg 0x100 1009)
          (.chunk (.read 0x100 ⟨0, 1008⟩ [⟨1008, 1⟩] []) .encode (.readReg 1009)) ∧
      responseOf (step (within (.readReg 0xD0000100 8)
        (.opDone [1, 0, 0, 0, 0x11, 0, 0, 0] (.readReg 8)) linked)) =
        some [0, 0, 0, 0, 0, 0, 0, 8, 1, 0, 0, 0, 0x11, 0, 0, 0] := by
  decide +kernel

theorem test_crc_command :
    responseOf (first (.crcCompute [0x31, 0x32, 0x33, 0x34, 0x35, 0x36, 0x37, 0x38, 0x39])
      State.reset) = some [0, 0, 0, 0, 0x34, 0x0b, 0xc6, 0xd9] := by
  decide +kernel

theorem test_illegal_opcode :
    responseOf (exec (.illegalHostOpcode 0xff) linked) = some [5, 1, 0, 0, 0, 0, 0, 0] := by
  decide +kernel

/-- The register map of R50 with `sel = 0x11`: no two registers overlap. -/
theorem test_register_map :
    regFileSize 0x11 = 0xD0005344 ∧
      (deviceRegisters 0x11).Pairwise (fun a b =>
        a.1.toNat + a.2 ≤ b.1.toNat ∨ b.1.toNat + b.2 ≤ a.1.toNat) := by
  decide +kernel

def closed : List Byte := zeros 8
def opened : List Byte := [3, 0, 0, 0, 0x11, 0, 0, 0]

/-- F1 after the second snapshot: entry 0. -/
theorem test_file_open :
    let t := after (step (within (.fileOpen 0x11 2) (.opDone opened (.openSecondStatus 0x11 2))
      linked))
    t.handles.head? = some (handleOf 2 false 1) ∧ t.trace = [.response [0, 0, 0, 0, 0, 0, 0, 0]] := by
  decide +kernel

/-- X4 (F2) after the first snapshot: handle 0 turns stale and the Close comes first. -/
theorem test_file_reopen :
    let t := after (step (within (.fileOpen 0x11 1) (.opDone opened (.openFirstStatus 0x11 1))
      (withHandles [handleOf 2 false 1])))
    t.handles.head? = some (handleOf 2 true 1) ∧
      t.seq = .busy (.fileOpen 0x11 1) (.operation 0x1100000001 (.openClose 0x11 1)) := by
  decide +kernel

theorem test_file_remove :
    (after (first (.fileRemove 0x11) linked)).seq =
        .busy (.fileRemove 0x11) (.operation 0x1100000004 .remove) ∧
      responseOf (step (within (.fileRemove 0x11) (.opDone [] .remove) linked)) =
        some [0, 0, 0, 0, 0, 0, 0, 0] := by
  decide +kernel

def sizeAction (n : List Byte) : Action := .read 0xD0005344 4 [rAck n]

theorem test_file_length :
    (after (first (.fileLength 0) (withHandles [handleOf 2 false 1]))).seq =
        .busy (.fileLength 0) (.chunk (.read 0xD0005344 ⟨0, 4⟩ [] []) .encode .length) ∧
      responseOf (step (within (.fileLength 0) (.opDone [0x88, 0x13, 0, 0] .length) linked)) =
        some [0, 0, 0, 0, 0, 0, 0x13, 0x88] := by
  decide +kernel

/-- F15 after the last execute: the progress event, then the response. -/
theorem test_file_write :
    let t := after (step (within (.fileWrite 0 [0x48, 0x45, 0x4c, 0x4c, 0x4f])
      (.opDone [] (.writeExecute 0 [0x48, 0x45, 0x4c, 0x4c, 0x4f] ⟨0, 5⟩ []))
      (withHandles [handleOf 2 false 1])))
    t.trace = [.progress 5 5] ∧ responseOf (step t) = some [0, 0, 0, 0, 0, 0, 0, 5] := by
  decide +kernel

/-- F18: FILE_EXISTS after the size read. -/
theorem test_file_write_exists :
    responseOf (step (within (.fileWrite 0 [0x58]) (.opDone [5, 0, 0, 0] (.writeSize 0 [0x58]))
      (withHandles [handleOf 2 false 1]))) = some [3, 1, 0, 0, 0, 0, 0, 0] := by
  decide +kernel

/-- F22 after the buffer is read. -/
theorem test_file_read :
    responseOf (step (within (.fileRead 0 16)
      (.opDone [0x48, 0x45, 0x4c, 0x4c, 0x4f] (.readBuffer 0 5 ⟨0, 5⟩ [] []))
      (withHandles [handleOf 1 false 1]))) =
        some [0, 0, 0, 0, 0, 0, 0, 5, 0x48, 0x45, 0x4c, 0x4c, 0x4f] := by
  decide +kernel

/-- F24. -/
theorem test_file_read_too_small :
    responseOf (step (within (.fileRead 0 4) (.opDone [5, 0, 0, 0] (.readSize 0 4))
      (withHandles [handleOf 1 false 1]))) = some [3, 3, 0, 0, 0, 0, 0, 0] := by
  decide +kernel

/-- F27, F29. -/
theorem test_handle_dup :
    (after (first (.handleDup 0) (withHandles [handleOf 2 false 1]))).handles.head? =
        some (handleOf 2 false 2) ∧
      responseOf (first (.handleDup 0) (withHandles [handleOf 2 false 65535])) =
        some [3, 15, 0, 0, 0, 0, 0, 0] := by
  decide +kernel

/-- F35: the last drop of a stale handle closes, and the newer handle turns stale. -/
theorem test_handle_drop_stale :
    let t := after (first (.handleDrop 0) (withHandles [handleOf 2 true 1, handleOf 1 false 1]))
    (t.handles.map Handle.valid).take 2 = [false, true] ∧ t.handles[1]? = some (handleOf 1 true 1) ∧
      t.seq = .busy (.handleDrop 0) (.operation 0x1100000001 .dropClose) := by
  decide +kernel

/-- F34: the device refuses the Close with status 0x0005; the drop ends OK. -/
theorem test_handle_drop_swallows :
    responseOf (exec (.writeMemAck { wAck 1 with status := 5 }) (within (.handleDrop 0)
      (.chunk (.write 0xD0003000 (zeros 8) ⟨0, 8⟩ [] 1 0) (.decode []) .dropClose) linked)) =
      some [0, 0, 0, 1, 0, 0, 0, 0] := by
  decide +kernel

/-- The block inside a WRITE_REG of one byte, and inside a READ_REG of 8, at phase `p`. -/
def writingAt (p : Phase) : State :=
  { linked with
    seq := .busy (.writeReg 0x100 [1])
      (.chunk (.write 0x100 [1] ⟨0, 1⟩ [] 1 0) p (.writeReg 1)) }

def readingAt (p : Phase) : State :=
  { linked with
    seq := .busy (.readReg 0x100 8) (.chunk (.read 0x100 ⟨0, 8⟩ [] []) p (.readReg 8)) }

/-- T1, T2: each phase of the handshake of `WRITE_REG addr=0xD0005100, data=[e8 03 00 00]`, with the
answer of EXDEV: its primitive and the phase that follows. -/
theorem test_handshake_primitives :
    ([(Phase.busyPoll 0, Answer.done [0x00], Event.memRead 0x1000 1 (some [0x00]), Phase.stage),
        (.stage, .done [], .memWrite 0x2000 writeRequestWord true, .stageLength),
        (.stageLength, .done [], .memWrite 0x1008 [0x1c, 0, 0, 0] true, .txReady),
        (.txReady, .done [], .memWrite 0x1001 [0x01] true, .consumedPoll 0),
        (.consumedPoll 0, .done [0x02], .memRead 0x1001 1 (some [0x02]), .txClear),
        (.txClear, .done [], .memWrite 0x1001 [0x00] true, .readyPoll 0),
        (.readyPoll 0, .done [0x01], .memRead 0x1002 1 (some [0x01]), .readLength),
        (.readLength, .done [0x14, 0, 0, 0], .memRead 0x1008 4 (some [0x14, 0, 0, 0]),
          .readBuffer 20),
        (.readBuffer 20, .done writeAckWord, .memRead 0x2000 20 (some writeAckWord),
          .rxConsumed writeAckWord),
        (.rxConsumed writeAckWord, .done [], .memWrite 0x1002 [0x02] true,
          .idlePoll writeAckWord 0),
        (.idlePoll writeAckWord 0, .done [0x00], .memRead 0x1002 1 (some [0x00]),
          .rxClear writeAckWord),
        (.rxClear writeAckWord, .done [], .memWrite 0x1002 [0x00] true, .decode writeAckWord)].all
      fun (p, a, e, p') =>
        endsIn (step { writingAt p with txBuf := writeRequestWord, answers := [a] })
          { writingAt p' with txBuf := writeRequestWord, trace := [e] }) = true := by
  decide +kernel

/-- T8: the channel fails the read of the length register; the step after it writes the response. -/
theorem test_channel_fail :
    let t := after (step { readingAt .readLength with answers := [.fail] })
    t.trace = [.memRead 0x1008 4 none] ∧
      t.seq = .busy (.readReg 0x100 8) (.raised .readFailed (.readReg 8)) ∧
      responseOf (step t) = some [1, 2, 0, 0, 0, 0, 0, 0] := by
  decide +kernel

/-- P2: the id after 65535 is 1. -/
theorem test_request_id_wrap :
    (after (exec (.writeMemAck (wAck 65535)) (within (.writeReg 0x100 [1])
      (.chunk (.write 0x100 [1] ⟨0, 1⟩ [] 65535 0) (.decode []) (.writeReg 1))
      { linked with reqId := 65535 }))).reqId = 1 := by
  decide +kernel

/-- R210, R33: reset between the sleep of a Pending ack and the poll, and before a response. -/
theorem test_reset_anywhere :
    let t := after (step (writingAt (.decode pendingAckWord)))
    let u := after (step { readingAt .readLength with answers := [.fail] })
    (after (step { t with resetLine := true })).trace = [] ∧
      (after (step { u with resetLine := true })).trace = [.memRead 0x1008 4 none] ∧
      (after (step { u with resetLine := true })).seq = .idle := by
  decide +kernel

/-- The requests at an ENCODE position: in `TXBUF`, before the busy poll. -/
theorem test_requests_staged :
    (after (exec (.readMemRequest 0xD0000100 8) (readingAt .encode))).txBuf = readRequestWord ∧
      (after (exec (.writeMemRequest 0xD0005100 [0xe8, 0x03, 0, 0]) (writingAt .encode))).txBuf =
        writeRequestWord := by
  decide +kernel

/-- Section 2.3 at a DECODE position: the acks of each kind, V14, V30, V31, V20. -/
theorem test_acks :
    (after (step (writingAt (.decode writeAckWord)))).seq =
        .busy (.writeReg 0x100 [1]) (.opDone [] (.writeReg 1)) ∧
      (after (step (readingAt (.decode readAckWord)))).seq =
        .busy (.readReg 0x100 8) (.opDone [1, 0, 0, 0, 0x11, 0, 0, 0] (.readReg 8)) ∧
      responseOf (exec (.undefinedCommandId 0x0804 (goodAck 0x0804 1 []))
        (writingAt (.decode []))) = some [2, 1, 0, 0, 0, 0, 0, 0] ∧
      responseOf (step (readingAt (.decode pendingAckWord))) = some [2, 1, 0, 0, 0, 0, 0, 0] := by
  decide +kernel

/-- X6: a Pending ack makes the block sleep 100 ms and receive again. -/
theorem test_pending_sleeps :
    let t := after (step (writingAt (.decode pendingAckWord)))
    t.seq = .busy (.writeReg 0x100 [1])
        (.chunk (.write 0x100 [1] ⟨0, 1⟩ [] 1 1) (.sleep 100 0) (.writeReg 1)) ∧
      (after (step t)).trace = [.sleep 100] ∧
      (after (step t)).seq = .busy (.writeReg 0x100 [1])
        (.chunk (.write 0x100 [1] ⟨0, 1⟩ [] 1 1) (.readyPoll 0) (.writeReg 1)) := by
  decide +kernel

/-- Section 2.3: a wrong CRC is reported, and raises only with `P_RX_CRC_ENFORCE` (V21, V22). -/
theorem test_crc_mismatch :
    (after (step (writingAt (.decode (writeAckWord.set 19 0x05))))).cmdCrcBad = true ∧
      responseOf (step { writingAt (.decode (writeAckWord.set 19 0x05)) with
        cfg := { Config.ex with rxCrcEnforce := true } }) = some [2, 6, 0, 1, 0, 0, 0, 0] := by
  decide +kernel

/-- The block before EXEC in a FILE_REMOVE. -/
def executing (v : Word64) : State :=
  { linked with seq := .busy (.fileRemove 0x11) (.operation v .remove) }

/-- The register write of the operation in a FILE_REMOVE: its bytes and its chunks. -/
def executes (bytes : List Byte) (cur : Chunk) (rest : List Chunk) (s : State) : State :=
  within (.fileRemove 0x11) (.chunk (.write 0xD0003000 bytes cur rest 1 0) .encode .remove) s

/-- Each OperationExecute value with its code (X12), in one chunk. -/
theorem test_operations :
    [(exec (.opOpen 2 0x11), (0 : Byte), (2 : Byte)), (exec (.opClose 0 0x11), 1, 0),
        (exec (.opRead 0 0x11), 2, 0), (exec (.opWrite 0 0x11), 3, 0),
        (exec (.opDelete 0 0x11), 4, 0)].all (fun (f, code, mode) =>
      endsIn (f (executing 0)) (executes [code, 0, mode, 0, 0x11, 0, 0, 0] ⟨0, 8⟩ [] linked)) =
      true := by
  decide +kernel

/-- X10: at `MPS = 28` the OperationExecute value reaches the device in two chunks. -/
theorem test_operation_two_chunks :
    endsIn (exec (.opDelete 0 0x11) { executing 0 with mps := 28 })
      (executes [4, 0, 0, 0, 0x11, 0, 0, 0] ⟨0, 4⟩ [⟨4, 4⟩] { linked with mps := 28 }) := by
  decide +kernel

/-- Every table word, placed where the step fetches, is the instruction the step runs. -/
theorem test_fetch_table_words :
    ([1, 2, 3, 4, 0x10, 0x11, 0x12, 0x13, 0x14, 0x15, 0x16, 0].map fun w =>
        (State.reset.withFetchWord 8 w).fetch.map Prod.fst) =
        [1, 2, 3, 4, 0x10, 0x11, 0x12, 0x13, 0x14, 0x15, 0x16, 0].map (decodeTableWord 8) ∧
      ([0x0800, 0x0801, 0x0802, 0x0803, 0x0805, 0x0804].map fun w =>
        (State.reset.withFetchWord 16 w).fetch.map Prod.fst) =
        [0x0800, 0x0801, 0x0802, 0x0803, 0x0805, 0x0804].map (decodeTableWord 16) ∧
      ([0, 1, 2, 3, 4].map fun w => (State.reset.withFetchWord 64 w).fetch.map Prod.fst) =
        [0, 1, 2, 3, 4].map (decodeTableWord 64) := by
  decide +kernel

/-- R92's examples of the assembler syntax. -/
theorem test_assembler_syntax :
    asmText (.linkInit 1024 0x1000 0x2000 0x1008) =
        some "LINK_INIT cap=1024, hs=0x1000, buf=0x2000, lenreg=0x1008" ∧
      asmText (.fileOpen 0x11 2) = some "FILE_OPEN sel=0x11, mode=W" ∧
      resultText (.error .fileExists) = "-> VALIDATION(FILE_EXISTS)" := by
  decide +kernel

/-! ### Witnesses: states and operands that meet the hypotheses of each statement -/

theorem witness_DecodeEncodeAgree :
    configOk .ex = true ∧ (Instr.readMemRequest 0 1).wf = true ∧
      (Instr.readMemRequest 0 1008).wf = true ∧ (Instr.writeMemRequest 0 [0]).wf = true ∧
      (Instr.undefinedCommandId 0x0800 (ackOf [])).wf = true ∧
      (Instr.illegalHostOpcode 0).wf = true ∧ (Instr.opOpen 0xffff 0xffffffff).wf = true := by
  decide +kernel

theorem witness_HostFrameFields :
    ([] : List Byte).length = (0 : Word32).toNat ∧ [0x48, (0x49 : Byte)].length = (2 : Word32).toNat ∧
      (0x0400100020001008 : Word64).toNat =
        (1024 : Word16).toNat * 2 ^ 48 + (0x1000 : Word16).toNat * 2 ^ 32 +
          (0x2000 : Word16).toNat * 2 ^ 16 + (0x1008 : Word16).toNat := by
  decide

theorem witness_ParseInvertsLayout :
    parsePacket writeAckWord = some (0x0803, writeAck) ∧ writeAckWord = packetBytes 0x0803 writeAck ∧
      parsePacket (zeros 15) = none ∧ parsePacket (zeros 16) = some (0, { ackOf [] with
        preamble := 0 }) := by
  decide +kernel

theorem witness_BadFrameLengthRaised :
    (writingAt (.decode [])).running ∧
      (writingAt (.decode [])).seq =
        .busy (.writeReg 0x100 [1])
          (.chunk (.write 0x100 [1] ⟨0, 1⟩ [] 1 0) (.decode []) (.writeReg 1)) ∧
      (writeAckWord.take 15).length < 16 ∧
      (writeAckWord.set 13 5).length ≠ 16 + (rdbe16 (writeAckWord.set 13 5) 12).toNat := by
  unfold State.running; decide +kernel

theorem witness_CrcDetectsOneByte : (0 : Byte) ≠ 1 := by decide

theorem witness_idle_commands : linked.seq = .idle ∧ State.reset.seq = .idle := by decide

theorem witness_ReceivedCrcCheck :
    let q := writeAckWord
    let bad := writeAckWord.set 19 5
    (writingAt (.decode q)).running ∧ (writingAt (.decode q)).answers = [] ∧ 16 ≤ q.length ∧
      q.length = 16 + (rdbe16 q 12).toNat ∧
      crc32jam (slice q 6 (10 + (rdbe16 q 12).toNat)) = rdbe32 q 2 ∧
      bad.length = 16 + (rdbe16 bad 12).toNat ∧
      crc32jam (slice bad 6 (10 + (rdbe16 bad 12).toNat)) ≠ rdbe32 bad 2 ∧
      configOk { Config.ex with rxCrcEnforce := true } = true := by
  unfold State.running; decide +kernel

theorem witness_LinkInitEstablishes :
    (∃ e ∈ (withHandles [handleOf 2 true 1]).handles, e.valid = true) ∧
      (∀ e ∈ linked.handles, e.valid = false) ∧ (27 : Word16).toNat < 28 ∧
      28 ≤ (28 : Word16).toNat ∧ 28 ≤ (0xffff : Word16).toNat := by
  decide +kernel

theorem witness_ChunksLaw :
    1 ≤ 1 ∧ (chunks 5000 1000)[4]? = some ⟨4000, 1000⟩ ∧ (chunks 9 4)[2]? = some ⟨8, 1⟩ ∧
      (zeros 9).length = 9 := by
  decide +kernel

theorem witness_PayloadLimits :
    28 ≤ { linked with mps := 28 }.mps.toNat ∧ linked.mps.toNat ≤ 1024 ∧
      linked.cfg.readAckHdr = 0 := by
  decide

theorem witness_NextRequestId : (1 : Word16) ≠ 0 ∧ (65534 : Word16) ≠ 65535 := by decide

theorem witness_RequestsAreSent :
    let s := { readingAt .encode with answers := sendAnswers .ex }
    s.running ∧ s.answers = sendAnswers s.cfg ++ [] ∧
      s.seq = .busy (.readReg 0x100 8)
        (.chunk (.read 0x100 ⟨0, 8⟩ [] []) .encode (.readReg 8)) ∧
      endsIn (exec (.readMemRequest 0x100 8) s)
        { readingAt (.busyPoll 0) with
          answers := sendAnswers .ex
          txBuf := buildReadMem 1 0x100 8, crcAcc := crc32jam ((buildReadMem 1 0x100 8).drop 6) } := by
  unfold State.running; decide +kernel

theorem witness_PacketsAreReceived :
    let s := { readingAt (.readyPoll 0) with answers := receiveAnswers .ex readAckWord }
    s.running ∧ readAckWord.length ≤ s.mps.toNat ∧ (zeros 1024).length ≤ s.mps.toNat ∧
      ([] : List Byte).length ≤ s.mps.toNat ∧
      s.answers = receiveAnswers s.cfg readAckWord ++ [] ∧
      s.seq = .busy (.readReg 0x100 8)
        (.chunk (.read 0x100 ⟨0, 8⟩ [] []) (.readyPoll 0) (.readReg 8)) := by
  unfold State.running; decide +kernel

/-- A poll that reads `v` twice, then `target`. -/
def missed (phase : Nat → Phase) (v target : List Byte) : State :=
  { writingAt (phase 0) with answers := [.done v, .done v, .done target] }

/-- Two misses without a limit, and below the limit 3. -/
theorem witness_PollsWaitBelowLimit :
    let s := { writingAt (.busyPoll 0) with answers := [.done [1], .done [1]] }
    let limited := { s with cfg := { Config.ex with pollLimit := some 3 } }
    s.running ∧ s.cfg.pollLimit = none ∧ limited.running ∧ limited.cfg.pollLimit = some 3 ∧
      0 + [[(1 : Byte)], [1]].length < 3 ∧ (∀ v ∈ [[(1 : Byte)], [1]], v.length = s.cfg.hsWidth) ∧
      s.answers = [[(1 : Byte)], [1]].map .done ++ [] ∧
      (∀ v ∈ [[(1 : Byte)], [1]],
        v ≠ s.cfg.vBusyClear ∧ v ≠ s.cfg.vTxConsumed ∧ v ≠ s.cfg.vRxIdle) ∧
      endsIn (steps 3 (missed .busyPoll [1] s.cfg.vBusyClear))
        { writingAt .stage with
          trace := [.memRead 0x1000 1 (some [1]), .memRead 0x1000 1 (some [1]),
            .memRead 0x1000 1 (some [0])] } ∧
      (after (steps 3 (missed .consumedPoll [1] s.cfg.vTxConsumed))).seq =
        (writingAt .txClear).seq ∧
      (after (steps 3 (missed (.idlePoll [7]) [1] s.cfg.vRxIdle))).seq =
        (writingAt (.rxClear [7])).seq ∧
      (after (step s)).seq = (writingAt (.busyPoll 1)).seq ∧
      (after (step (after (step limited)))).seq = (writingAt (.busyPoll 2)).seq ∧
      (writingAt (.consumedPoll 0)).seq ≠ (writingAt (.idlePoll [] 0)).seq := by
  unfold State.running; decide +kernel

/-- T3: two misses of the response-ready flag, each with its sleep of 50 ms. -/
theorem witness_ReadyPollSleeps :
    let s := { writingAt (.readyPoll 0) with answers := [.done [0], .done [0], .done [1]] }
    let limited := { s with cfg := { Config.ex with pollLimit := some 3 } }
    s.running ∧ s.cfg.pollLimit = none ∧ 0 < s.cfg.rxPollDelay ∧ limited.running ∧
      limited.cfg.pollLimit = some 3 ∧ 0 + [[(0 : Byte)], [0]].length < 3 ∧
      (∀ v ∈ [[(0 : Byte)], [0]], v.length = s.cfg.hsWidth ∧ v ≠ s.cfg.vRxReady) ∧
      s.answers = [[(0 : Byte)], [0]].map .done ++ [.done s.cfg.vRxReady] ++ [] ∧
      (after (step (after (step s)))).trace = [.memRead 0x1002 1 (some [0]), .sleep 50] := by
  unfold State.running; decide +kernel

/-- T6: `P_POLL_LIMIT = 3`, the third mismatch. -/
theorem witness_PollLimitTimesOut :
    let s := { writingAt (.busyPoll 2) with
      cfg := { Config.ex with pollLimit := some 3 }, answers := [.done [1]] }
    s.running ∧ s.cfg.pollLimit = some 3 ∧ 3 ≤ 2 + 1 ∧ [(1 : Byte)].length = s.cfg.hsWidth ∧
      s.answers = [.done [1]] ∧ [(1 : Byte)] ≠ s.cfg.vBusyClear ∧ [(1 : Byte)] ≠ s.cfg.vTxConsumed ∧
      [(1 : Byte)] ≠ s.cfg.vRxIdle ∧ [(0 : Byte)] ≠ s.cfg.vRxReady ∧
      responseOf (steps 2 s) = some [4, 1, 0, 0, 0, 0, 0, 0] ∧
      (after (steps 2 s)).linkUp = false := by
  unfold State.running; decide +kernel

/-- T4: a declared length of 1025; and a length of 0 (R133). -/
theorem witness_ResponseLengthChecked :
    let s := { readingAt .readLength with answers := [.done [0x01, 0x04, 0, 0]] }
    s.running ∧ 1025 < 256 ^ s.cfg.lenWidth ∧
      s.answers = .done (enc s.cfg.lenOrder s.cfg.lenWidth 1025) :: [] ∧ s.mps.toNat < 1025 ∧
      1024 ≤ s.mps.toNat ∧ responseOf (steps 2 s) = some [2, 4, 0, 0, 0, 0, 0, 0] ∧
      enc s.cfg.lenOrder s.cfg.lenWidth 0 = [0, 0, 0, 0] ∧
      endsIn (step { s with answers := [.done [0, 0, 0, 0]] })
        { readingAt (.rxConsumed []) with trace := [.memRead 0x1008 4 (some [0, 0, 0, 0])] } := by
  unfold State.running; decide +kernel

/-- T7: the channel fails the staging write; and a read of another length. -/
theorem witness_FailedPrimitiveRaises :
    let s := { writingAt .stage with txBuf := writeRequestWord, answers := [.fail] }
    let r := { writingAt .readLength with answers := [.done [0, 0, 0]] }
    s.running ∧ s.pending = some (.memWrite 0x2000 writeRequestWord) ∧
      responseOf (steps 2 s) = some [1, 1, 0, 0, 0, 0, 0, 0] ∧
      r.running ∧ r.pending = some (.memRead 0x1008 4) ∧ [(0 : Byte), 0, 0].length ≠ 4 ∧
      responseOf (steps 2 r) = some [1, 2, 0, 0, 0, 0, 0, 0] := by
  unfold State.running; decide +kernel

/-- V12: three chunks at `cap = 28`. -/
theorem witness_WriteRegRuns :
    let xs := [Action.write 0x100 (zeros 9) [wAck 1, wAck 2, wAck 3]]
    let s := playing (begun (.writeReg 0x100 (zeros 9)) { linked with mps := 28 }) xs
    State.reset.linkUp = false ∧ s.ready (.writeReg 0x100 (zeros 9)) ∧ s.plays xs [] := by
  unfold State.ready State.running State.plays; decide +kernel

/-- V29: three chunks at `cap = 28`. -/
theorem witness_ReadRegRuns :
    let xs := [Action.read 0x100 25 [rAck (zeros 12), rAck (zeros 12), rAck [7]]]
    let s := playing (begun (.readReg 0x100 25) { linked with mps := 28 }) xs
    s.ready (.readReg 0x100 25) ∧ s.plays xs [] := by
  unfold State.ready State.running State.plays; decide +kernel

/-- V13, V15, V16 and an accepted ack, each clause. -/
theorem witness_WriteAckAccepted :
    let s := writingAt (.decode [])
    s.seq = .busy (.writeReg 0x100 [1])
        (.chunk (.write 0x100 [1] ⟨0, 1⟩ [] 1 0) (.decode []) (.writeReg 1)) ∧
      s.crcAccepted 0x0801 readAck = true ∧ s.crcAccepted 0x0803 writeAck = true ∧
      ({ writeAck with status := 0x8001 } : Ack).status ≠ s.cfg.statusSuccess ∧
      writeAck.status = s.cfg.statusSuccess ∧ (wAck 2).requestId ≠ 1 ∧ writeAck.requestId = 1 ∧
      responseOf (exec (.writeMemAck (wAck 2)) s) = some [2, 3, 0, 0, 0, 0, 0, 0] := by
  decide +kernel

/-- V30, V31, V32 and an accepted ack, each clause. -/
theorem witness_ReadAckAccepted :
    let s := readingAt (.decode [])
    s.seq = .busy (.readReg 0x100 8)
        (.chunk (.read 0x100 ⟨0, 8⟩ [] []) (.decode []) (.readReg 8)) ∧
      s.crcAccepted 0x0801 readAck = true ∧ s.crcAccepted 0x0803 writeAck = true ∧
      s.crcAccepted 0x0805 pendingAck = true ∧ readAck.status = s.cfg.statusSuccess ∧
      ({ readAck with status := 2 } : Ack).status ≠ s.cfg.statusSuccess ∧
      readAck.payload.length = 8 ∧ (rAck (zeros 7)).payload.length ≠ 8 ∧
      responseOf (exec (.readMemAck (rAck (zeros 7))) s) = some [2, 8, 0, 0, 0, 0, 0, 0] := by
  decide +kernel

/-- V18, V19, V20, each clause. -/
theorem witness_PendingAckSleeps :
    let s := writingAt (.decode [])
    let limited := { s with cfg := { Config.ex with pendingLimit := some 0 } }
    s.crcAccepted 0x0805 pendingAck = true ∧ (ackOf [0, 0, 0]).payload.length < 4 ∧
      4 ≤ pendingAck.payload.length ∧ s.cfg.pendingLimit = none ∧ s.running ∧
      limited.cfg.pendingLimit = some 0 ∧ 0 < 0 + 1 ∧
      responseOf (exec (.pendingAck pendingAck) limited) = some [4, 2, 0, 0, 0, 0, 0, 0] := by
  unfold State.running; decide +kernel

theorem witness_UndefinedCommandIdRefused :
    let a := goodAck 0x0804 1 []
    let s := writingAt (.decode (packetBytes 0x0804 a))
    s.running ∧ (0x0804 : Word16) ≠ 0x0801 ∧ a.payload.length < 2 ^ 16 ∧
      s.crcAccepted 0x0804 a = true ∧ responseOf (step s) = some [2, 1, 0, 0, 0, 0, 0, 0] := by
  unfold State.running; decide +kernel

/-- `MPS = 28`: the value in two chunks. -/
theorem witness_OperationExecuteWrites :
    let s := { executing 0 with mps := 28 }
    let xs := [execAction .ex Config.ex.opDelete 0 0x11 [wAck 1, wAck 2]]
    let s' := playing s xs
    s'.running ∧ 28 ≤ s'.mps.toNat ∧ s'.plays xs [] := by
  unfold State.running State.plays; decide +kernel

theorem witness_WireInstructionsElsewhere :
    (Instr.readMemRequest 0 1).port = .request ∧ (Instr.readMemAck (ackOf [])).port = .received ∧
      (Instr.opRead 0 0).port = .operation ∧ linked.seq = .idle := by
  decide

/-- Each clause of CHECK_HANDLE has a state. -/
theorem witness_HandleChecks :
    let live := withHandles [handleOf 2 false 1]
    let stale := withHandles [handleOf 2 true 1]
    (begun (.fileLength 0) live).seq = .busy (.fileLength 0) .start ∧
      State.reset.linkUp = false ∧ live.linkUp = true ∧
      live.handles[(0 : Byte).toNat]? = some (handleOf 2 false 1) ∧
      live.handles[(3 : Byte).toNat]? = some Handle.reset ∧ ¬ (4 : Byte).toNat < live.cfg.numHandles ∧
      stale.handles[0]? = some (handleOf 2 true 1) ∧ (handleOf 2 false 1).mode ≠ 1 := by
  decide +kernel

theorem witness_FileOpenChecks :
    let full := withHandles [handleOf 2 true 1, handleOf 2 true 1, handleOf 2 true 1,
      handleOf 2 false 1]
    State.reset.linkUp = false ∧ linked.linkUp = true ∧ (0x12 : Byte) ∉ linked.cfg.knownSelectors ∧
      (0x11 : Byte) ∈ linked.cfg.knownSelectors ∧ (3 : Byte) ≠ 2 ∧
      (∀ e ∈ full.handles, e.valid = true) := by
  decide +kernel

/-- F2 (a file open, entry 1 free) and F7 (not confirmed). -/
theorem witness_FileOpenRuns :
    let xs := [.read 0xD0000100 8 [rAck opened], execAction .ex 1 0 0x11 [wAck 1],
      execAction .ex 0 1 0x11 [wAck 2], .read 0xD0000100 8 [rAck opened]]
    let s := playing (begun (.fileOpen 0x11 1) (withHandles [handleOf 2 false 1])) xs
    let st := dec .le (payloads [rAck opened])
    s.ready (.fileOpen 0x11 1) ∧ (0x11 : Byte) ∈ s.cfg.knownSelectors ∧ s.plays xs [] ∧
      s.handles[1]? = some Handle.reset ∧ s.handles[0]? = some (handleOf 2 false 1) ∧
      st.testBit 0 = true ∧ st / 2 ^ 32 % 2 ^ 32 = 0x11 ∧
      (dec .le (payloads [rAck closed])).testBit 0 = false := by
  unfold State.ready State.running State.plays; decide +kernel

theorem witness_FileRemoveRuns :
    let xs := [execAction .ex 4 0 0x11 [wAck 1]]
    let s := playing (begun (.fileRemove 0x11) linked) xs
    s.ready (.fileRemove 0x11) ∧ (0x11 : Byte) ∈ s.cfg.knownSelectors ∧ (0 : Byte) ∉ s.cfg.knownSelectors ∧
      s.plays xs [] := by
  unfold State.ready State.running State.plays; decide +kernel

theorem witness_FileLengthRuns :
    let xs := [sizeAction [5, 0, 0, 0]]
    let s := playing (begun (.fileLength 0) (withHandles [handleOf 1 false 1])) xs
    s.ready (.fileLength 0) ∧ (0 : Byte).toNat < s.cfg.numHandles ∧ s.handles[0]? = some (handleOf 1 false 1) ∧
      (0xD0005300 + 4 * (0x11 : Byte).setWidth 64 : Word64) = 0xD0005344 ∧ s.plays xs [] := by
  unfold State.ready State.running State.plays; decide +kernel

/-- Two chunks at `MPS = 28` (`LF = 4`). -/
theorem witness_FileWriteRuns :
    let s := begun (.fileWrite 0 (zeros 5)) { withHandles [handleOf 2 false 1] with mps := 28 }
    let xs := [sizeAction [0, 0, 0, 0], .read 0xD0005210 4 [rAck [5, 0, 0, 0]]] ++
      fileWriteActions .ex 0x11 (zeros 5) (chunks 5 4)
        [([wAck 1], [wAck 2], [wAck 3, wAck 4]), ([wAck 5], [wAck 6], [wAck 7, wAck 8])]
    let s' := playing s xs
    s'.ready (.fileWrite 0 (zeros 5)) ∧ s'.handles[0]? = some (handleOf 2 false 1) ∧ s'.plays xs [] ∧
      (zeros 5).length ≤ dec .le (payloads [rAck [5, 0, 0, 0]]) := by
  unfold State.ready State.running State.plays; decide +kernel

/-- F18 and F19, each clause. -/
theorem witness_FileWriteRefused :
    let s := begun (.fileWrite 0 (zeros 17)) (withHandles [handleOf 2 false 1])
    let exists' := playing s [sizeAction [5, 0, 0, 0]]
    let large := playing s
      [sizeAction [0, 0, 0, 0], .read 0xD0005210 4 [rAck [16, 0, 0, 0]]]
    exists'.ready (.fileWrite 0 (zeros 17)) ∧ exists'.plays [sizeAction [5, 0, 0, 0]] [] ∧
      large.ready (.fileWrite 0 (zeros 17)) ∧ large.plays
        [sizeAction [0, 0, 0, 0], .read 0xD0005210 4 [rAck [16, 0, 0, 0]]] [] ∧
      dec .le (payloads [rAck [16, 0, 0, 0]]) < (zeros 17).length := by
  unfold State.ready State.running State.plays; decide +kernel

/-- Two chunks at `MPS = 28`. -/
theorem witness_FileReadRuns :
    let s := begun (.fileRead 0 5) { withHandles [handleOf 1 false 1] with mps := 28 }
    let xs := [sizeAction [5, 0, 0, 0]] ++ fileReadActions .ex 0x11 (chunks 5 4)
        [([wAck 1], [wAck 2, wAck 3], [rAck [1, 2, 3, 4]]), ([wAck 4], [wAck 5, wAck 6], [rAck [5]])]
    let s' := playing s xs
    s'.ready (.fileRead 0 5) ∧ s'.handles[0]? = some (handleOf 1 false 1) ∧ s'.plays xs [] := by
  unfold State.ready State.running State.plays; decide +kernel

/-- F24 and F25, each clause. -/
theorem witness_FileReadRefused :
    let s := playing (begun (.fileRead 0 4) (withHandles [handleOf 1 false 1]))
      [sizeAction [0, 0, 0, 0]]
    s.ready (.fileRead 0 4) ∧ s.plays [sizeAction [0, 0, 0, 0]] [] ∧
      dec .le (payloads [rAck [0, 0, 0, 0]]) = 0 ∧
      (4 : Word32).toNat < dec .le (payloads [rAck [5, 0, 0, 0]]) := by
  unfold State.ready State.running State.plays; decide +kernel

/-- Each clause of HANDLE_DUP and HANDLE_DROP has a state. -/
theorem witness_handle_counts :
    let s := withHandles [handleOf 2 true 65535, handleOf 1 false 2, handleOf 1 true 1]
    (begun (.handleDrop 1) s).seq = .busy (.handleDrop 1) .start ∧ (2 : Byte).toNat < s.cfg.numHandles ∧
      s.handles[(0 : Byte).toNat]? = some (handleOf 2 true 65535) ∧
      s.handles[(1 : Byte).toNat]? = some (handleOf 1 false 2) ∧
      s.handles[(2 : Byte).toNat]? = some (handleOf 1 true 1) ∧
      { s with linkUp := false }.linkUp = false ∧ ¬ (4 : Byte).toNat < s.cfg.numHandles := by
  decide +kernel

theorem witness_HandleDropRuns :
    let xs := [execAction .ex 1 0 0x11 [wAck 1]]
    let s := playing (begun (.handleDrop 0) (withHandles [handleOf 2 true 1, handleOf 1 false 1])) xs
    s.ready (.handleDrop 0) ∧ s.plays xs [] := by
  unfold State.ready State.running State.plays; decide +kernel

/-- The block inside HANDLE_DROP's Close, at its last poll, whose read fails. -/
theorem witness_HandleDropEndsOk :
    let s := { linked with
      answers := [.fail]
      seq := .busy (.handleDrop 0)
        (.chunk (.write 0xD0003000 (zeros 8) ⟨0, 8⟩ [] 1 0) (.idlePoll [] 0) .dropClose) }
    s.resetLine = false ∧ responseOf (steps 2 s) = some [0, 0, 0, 0, 0, 0, 0, 0] ∧
      (∃ e, (0 : Byte).toNat < linked.cfg.numHandles ∧
        (withHandles [handleOf 2 false 1]).handles[0]? = some e ∧ e.valid = true) := by
  refine ⟨by decide, by decide +kernel, handleOf 2 false 1, by decide, by decide, by decide⟩

theorem witness_IllegalOpcodeAnswered :
    16 ≤ (zeros 16).length ∧
      byteAt (zeros 16) 0 ∉ [0x01, 0x02, 0x03, 0x04, 0x10, 0x11, 0x12, 0x13, 0x14, 0x15, 0x16] := by
  decide

theorem witness_CommandsBeforeLinkInit :
    State.reset.linkUp = false ∧ (∀ e ∈ State.reset.handles, e.valid = false) := by
  decide

theorem witness_ResetTakesEffect :
    let s := { writingAt .txReady with resetLine := true }
    configOk s.cfg = true ∧ s.resetLine = true ∧ (after (step s)).linkUp = false := by
  decide +kernel

/-- Each constraint of R8 and of R83 can be broken alone; here one of each kind. -/
theorem witness_BadConfigurationRefused :
    let with' (c : Config) : State := { State.reset with cfg := c }
    refusesConfig (step (with' { Config.ex with vRxClear := [] })) ∧
      refusesConfig (step (with' { Config.ex with vTxConsumed := [1] })) ∧
      refusesConfig (step (with' { Config.ex with stSelWidth := 7 })) ∧
      refusesConfig (step (with' { Config.ex with stRdBit := 32 })) ∧
      refusesConfig (step (with' { Config.ex with lenWidth := 9 })) ∧
      refusesConfig (step (with' { Config.ex with opDelete := 0 })) ∧
      endsIn (step (with' Config.ex)) (with' Config.ex) := by
  decide +kernel

/-- Each clause of the step's decoding has a state. -/
theorem witness_StepRunsDecoded :
    let host := { linked with hostIn := 0x15 :: zeros 15 }
    host.running ∧ decodeHost host.hostIn = .ok (.handleDup 0, []) ∧
      (begun (.handleDup 0) linked).running ∧ (writingAt .encode).running ∧
      (readingAt .encode).running ∧
      decode .ex .received writeAckWord = .ok (.writeMemAck writeAck) ∧
      (executing 0x1100000004).running ∧
      decode .ex .operation (enc .le 8 (0x1100000004 : Word64).toNat) = .ok (.opDelete 0 0x11) := by
  unfold State.running; decide +kernel

/-- And frames of R91: one byte short of a header, one byte short of two data bytes, and complete. -/
theorem witness_CommandsHeldWhileBusy :
    let head : List Byte := [0x04, 0, 0, 0, 0, 0, 0, 0, 0, 0, 0, 0, 0, 0, 0, 2]
    (head.take 15).length = 15 ∧ decodeHost (head.take 15) = .error .incomplete ∧
      (head ++ [0x31]).length = 16 + (rdbe32 head 12).toNat - 1 ∧
      decodeHost (head ++ [0x31]) = .error .incomplete ∧
      decodeHost (head ++ [0x31, 0x32]) = .ok (.crcCompute [0x31, 0x32], []) ∧
      decodeHost (head.set 0 0x14) = .ok (.fileRead 0 2, []) ∧
      (writingAt .stage).seq ≠ .idle ∧ (writingAt .stage).resetLine = false ∧
      (Instr.handleDup 0).port = .host ∧ linked.running ∧
      decodeHost linked.hostIn = .error .incomplete ∧
      goesOn (step { writingAt .stage with answers := [.fail] }) := by
  unfold State.running; decide +kernel

/-- A BUSY block before a primitive, before a sleep and before an internal computation. -/
theorem witness_SequencerAdvances :
    (Instr.handleDup 0).port = .host ∧ linked.seq = .idle ∧
      (writingAt .stage).pending = some (.memWrite 0x2000 []) ∧
      goesOn (step { writingAt .stage with answers := [.done []] }) ∧
      goesOn (step (writingAt (.sleep 50 1))) ∧ (writingAt (.sleep 50 1)).pending = none ∧
      goesOn (step (begun (.handleDup 0) linked)) ∧
      (begun (.handleDup 0) linked).pending = none ∧
      (∀ op, Instr.writeReg 0x100 [1] ≠ .illegalHostOpcode op) ∧
      (∀ op, Instr.handleDup 0 ≠ .illegalHostOpcode op) := by
  refine ⟨by decide, by decide, by decide, by decide +kernel, by decide +kernel, by decide,
    by decide +kernel, by decide, nofun, nofun⟩

/-- A step and an execution that answer a next state, from IDLE and from BUSY. -/
theorem witness_next_states :
    goesOn (exec (.handleDup 0) linked) ∧ goesOn (first (.readReg 0 0) linked) ∧
      endsIn (step State.reset) State.reset := by
  decide +kernel

/-- The premises of the statements about the steps of a command: the invariant holds, the link is up,
and the step takes it down, in a WRITE_REG and in HANDLE_DROP's Close; and a READ_REG. -/
theorem witness_steps_of_commands :
    let limit : Config := { Config.ex with pollLimit := some 1 }
    let s := { within (.writeReg 0x100 [1]) (.raised .pollTimeout (.writeReg 1)) linked with
      cfg := limit }
    let d := { within (.handleDrop 0) (.raised .pollTimeout .dropClose) linked with cfg := limit }
    let r := readingAt .encode
    Inv s ∧ s.resetLine = false ∧ s.linkUp = true ∧ goesOn (step s) ∧
      (after (step s)).linkUp = false ∧ Inv d ∧ (after (step d)).linkUp = false ∧
      Inv r ∧ goesOn (step r) := by
  refine ⟨⟨by decide, by decide, by decide, by decide, by decide, by decide, by decide⟩, rfl, rfl,
    by decide +kernel, by decide +kernel,
    ⟨by decide, by decide, by decide, by decide, by decide, by decide, by decide⟩,
    by decide +kernel,
    ⟨by decide, by decide, by decide, by decide, by decide, by decide, by decide⟩,
    by decide +kernel⟩

/-- The invariants hold in a state inside FILE_OPEN, which then takes a step. -/
theorem witness_StepKeepsInv :
    let s := { withHandles [handleOf 2 true 1] with
      answers := [.done [0x00]]
      txBuf := writeRequestWord
      seq := .busy (.fileOpen 0x11 1)
        (.chunk (.write 0xD0003000 (zeros 8) ⟨0, 8⟩ [] 1 0) (.busyPoll 0) (.openOpen 0x11 1)) }
    Inv s ∧ PacketInv s ∧ goesOn (step s) := by
  refine ⟨⟨by decide, by decide, by decide, by decide, by decide, by decide, by decide⟩,
    ⟨by decide, by decide, by decide⟩, by decide +kernel⟩

end Sys2Proof.Tests
end

section
/-! PROOFS. What the two checks on the parameters say, the constraints of R8 and the distinct codes of
R83, and the refusal of a configuration that breaks one (O46). -/

namespace Sys2Proof.Machine

variable {c : Config}

theorem step_of_not_configOk {s : State} (h : ¬ configOk s.cfg = true) :
    step s = .refused .badConfiguration := by
  simp [step, h]

theorem configOk_iff :
    configOk c = true ↔ configR8 c = true ∧ configR83 c = true ∧ configBounds c = true := by
  simp [configOk]

/-- R8's constraints in six groups: the lengths of the flag values, the flag values that differ, the
selector field, the status bits that differ, the status bits outside the selector field, the length
register. -/
theorem configR8_iff :
    configR8 c = true ↔
      (c.vBusyClear.length = c.hsWidth ∧ c.vTxReady.length = c.hsWidth ∧
        c.vTxConsumed.length = c.hsWidth ∧ c.vTxClear.length = c.hsWidth ∧
        c.vRxReady.length = c.hsWidth ∧ c.vRxConsumed.length = c.hsWidth ∧
        c.vRxIdle.length = c.hsWidth ∧ c.vRxClear.length = c.hsWidth) ∧
      (c.vTxConsumed ≠ c.vTxReady ∧ c.vRxIdle ≠ c.vRxConsumed ∧ c.vRxReady ≠ c.vRxIdle) ∧
      (c.stSelLsb + c.stSelWidth ≤ 64 ∧ 8 ≤ c.stSelWidth) ∧
      (c.stOpenBit ≠ c.stWrBit ∧ c.stOpenBit ≠ c.stRdBit ∧ c.stWrBit ≠ c.stRdBit) ∧
      (∀ b ∈ [c.stOpenBit, c.stWrBit, c.stRdBit],
        b < c.stSelLsb ∨ c.stSelLsb + c.stSelWidth ≤ b) ∧
      2 ≤ c.lenWidth ∧ c.lenWidth ≤ 8 := by
  simp [configR8, and_assoc]

theorem configR83_iff :
    configR83 c = true ↔
      (c.opOpen ≠ c.opClose ∧ c.opOpen ≠ c.opRead ∧ c.opOpen ≠ c.opWrite ∧
        c.opOpen ≠ c.opDelete) ∧
      (c.opClose ≠ c.opRead ∧ c.opClose ≠ c.opWrite ∧ c.opClose ≠ c.opDelete) ∧
      (c.opRead ≠ c.opWrite ∧ c.opRead ≠ c.opDelete) ∧ c.opWrite ≠ c.opDelete := by
  simp [configR83]

/-- Settles O46: a configuration that is not refused meets every constraint of R8 and R83, so each of
the breaches contradicts one of them. -/
theorem badConfigurationRefused : Obligations.BadConfigurationRefused := by
  intro s broken
  refine step_of_not_configOk fun hok => ?_
  obtain ⟨hR8, hR83, -⟩ := configOk_iff.mp hok
  obtain ⟨widths, values, ⟨selTop, selWidth⟩, bits, outside, lenMin, lenMax⟩ := configR8_iff.mp hR8
  have codes := configR83_iff.mp hR83
  have notInside : ¬ ∃ b ∈ [s.cfg.stOpenBit, s.cfg.stWrBit, s.cfg.stRdBit],
      s.cfg.stSelLsb ≤ b ∧ b < s.cfg.stSelLsb + s.cfg.stSelWidth := by
    rintro ⟨b, hb, hlo, hhi⟩
    have := outside b hb
    omega
  simp only [widths, values, bits, codes, notInside, selTop.not_gt, selWidth.not_gt,
    lenMin.not_gt, lenMax.not_gt, ne_eq, not_true_eq_false, or_self] at broken

end Sys2Proof.Machine
end

section
/-! PROOFS. The most data a packet of at most `MPS` bytes carries, and its range over the legal values of
`MPS` (O14). -/

namespace Sys2Proof.Machine

variable {s : State}

theorem State.mwp_eq : s.mwp = s.mps.toNat - 24 := rfl

theorem State.mrp_eq : s.mrp = s.mps.toNat - 16 - s.cfg.readAckHdr := rfl

/-- Settles O14: both formulas are the definitions with the header sizes filled in, the one for `MWP`
loses nothing in the subtraction as `MPS` is at least 28, and the ranges are those of `MPS` moved by
the headers. -/
theorem payloadLimits : Obligations.PayloadLimits := by
  intro s mpsMin mpsMax
  refine ⟨?mwpValue, State.mrp_eq, fun emptyHeader => ?ranges⟩
  case mwpValue =>
    rw [State.mwp_eq]
    exact Nat.sub_add_cancel (by omega)
  case ranges =>
    rw [State.mwp_eq, State.mrp_eq, emptyHeader]
    omega

end Sys2Proof.Machine
end

section
/-! PROOFS. The fields of a host frame as the decoder reads them back, and from them the command of
every frame, whatever bytes follow it (O2). -/

namespace Sys2Proof

/-! ### Big-endian fields inside a byte string -/

/-- What stands between a prefix and the rest. -/
theorem slice_append_middle (pre xs post : List Byte) :
    slice (pre ++ xs ++ post) pre.length xs.length = xs := by
  rw [List.append_assoc]
  exact (slice_append_right pre (xs ++ post) 0 xs.length).trans (slice_append_left xs post)

theorem rdbe32_append_be32 (pre post : List Byte) (v : Word32) :
    rdbe32 (pre ++ be32 v ++ post) pre.length = v := by
  have field : slice (pre ++ be32 v ++ post) pre.length 4 = be32 v := by
    simpa only [length_be32] using slice_append_middle pre (be32 v) post
  have fits : v.toNat % 256 ^ 4 = v.toNat := Nat.mod_eq_of_lt v.isLt
  rw [rdbe32, field, be32, dec_enc, fits, BitVec.ofNat_toNat, BitVec.setWidth_eq]

theorem rdbe64_append_be64 (pre post : List Byte) (v : Word64) :
    rdbe64 (pre ++ be64 v ++ post) pre.length = v := by
  have field : slice (pre ++ be64 v ++ post) pre.length 8 = be64 v := by
    simpa only [length_be64] using slice_append_middle pre (be64 v) post
  have fits : v.toNat % 256 ^ 8 = v.toNat := Nat.mod_eq_of_lt v.isLt
  rw [rdbe64, field, be64, dec_enc, fits, BitVec.ofNat_toNat, BitVec.setWidth_eq]

/-! ### The data bytes a frame carries (R91) -/

theorem hostDataLength_of_carries {op : Byte} (carries : op = 0x02 ∨ op = 0x04 ∨ op = 0x13)
    (len : Word32) : hostDataLength op len = len.toNat := if_pos carries

theorem hostDataLength_of_not_carries {op : Byte} (bare : ¬ (op = 0x02 ∨ op = 0x04 ∨ op = 0x13))
    (len : Word32) : hostDataLength op len = 0 := if_neg bare

section
variable (op h sel mode : Byte) (addr : Word64) (len : Word32) (data rest : List Byte)

/-! ### The fields of a host frame (R87) -/

theorem byteAt_hostFrame :
    byteAt (hostFrame op h sel mode addr len data ++ rest) 0 = op ∧
      byteAt (hostFrame op h sel mode addr len data ++ rest) 1 = h ∧
      byteAt (hostFrame op h sel mode addr len data ++ rest) 2 = sel ∧
      byteAt (hostFrame op h sel mode addr len data ++ rest) 3 = mode :=
  ⟨rfl, rfl, rfl, rfl⟩

theorem rdbe64_hostFrame :
    rdbe64 (hostFrame op h sel mode addr len data ++ rest) 4 = addr := by
  simpa [hostFrame] using rdbe64_append_be64 [op, h, sel, mode] (be32 len ++ data ++ rest) addr

theorem rdbe32_hostFrame :
    rdbe32 (hostFrame op h sel mode addr len data ++ rest) 12 = len := by
  simpa [hostFrame] using rdbe32_append_be32 ([op, h, sel, mode] ++ be64 addr) (data ++ rest) len

theorem slice_hostFrame :
    slice (hostFrame op h sel mode addr len data ++ rest) hdrSize data.length = data := by
  simpa [hostFrame, hdrSize] using
    slice_append_middle ([op, h, sel, mode] ++ be64 addr ++ be32 len) data rest

theorem drop_hostFrame :
    (hostFrame op h sel mode addr len data ++ rest).drop (hdrSize + data.length) = rest :=
  List.drop_left' (Laws.EncodedLength.length_hostFrame op h sel mode addr len data)

/-! ### The command of a host frame -/

variable {data} in
/-- A frame with as many data bytes as its opcode asks for decodes to the command of its fields and
leaves the bytes that follow it. -/
theorem decodeHost_hostFrame (complete : data.length = hostDataLength op len) :
    decodeHost (hostFrame op h sel mode addr len data ++ rest) =
      .ok (hostInstr op h sel mode addr len data, rest) := by
  have length_frame :
      (hostFrame op h sel mode addr len data ++ rest).length =
        hdrSize + data.length + rest.length := by
    rw [List.length_append, Laws.EncodedLength.length_hostFrame, hdrSize]
  have headerComplete : ¬ hdrSize + data.length + rest.length < hdrSize := by omega
  have frameComplete :
      ¬ hdrSize + data.length + rest.length < hdrSize + data.length := by omega
  simp only [decodeHost, length_frame, byteAt_hostFrame, rdbe32_hostFrame, ← complete,
    headerComplete, frameComplete, if_false, rdbe64_hostFrame, slice_hostFrame, drop_hostFrame]

variable {op data} in
theorem decodeHost_of_carries (carries : op = 0x02 ∨ op = 0x04 ∨ op = 0x13)
    (length_data : data.length = len.toNat) :
    decodeHost ([op, h, sel, mode] ++ be64 addr ++ be32 len ++ data ++ rest) =
      .ok (hostInstr op h sel mode addr len data, rest) :=
  decodeHost_hostFrame op h sel mode addr len rest
    (length_data.trans (hostDataLength_of_carries carries len).symm)

variable {op} in
/-- The frame of an opcode that carries no data ends with its header, whatever `len` says. -/
theorem decodeHost_of_not_carries (bare : ¬ (op = 0x02 ∨ op = 0x04 ∨ op = 0x13)) :
    decodeHost ([op, h, sel, mode] ++ be64 addr ++ be32 len ++ rest) =
      .ok (hostInstr op h sel mode addr len [], rest) := by
  have frame := decodeHost_hostFrame op h sel mode addr len (data := []) rest
    (hostDataLength_of_not_carries bare len).symm
  rwa [hostFrame, List.append_nil] at frame

end

/-! ### LINK_INIT's operands -/

/-- LINK_INIT's operands are the four 16-bit parts of `addr`, most significant first (R88). -/
theorem hostInstr_linkInit (h sel mode : Byte) (len : Word32) (data : List Byte) {addr : Word64}
    {cap hs buf lenreg : Word16}
    (parts : addr.toNat =
      cap.toNat * 2 ^ 48 + hs.toNat * 2 ^ 32 + buf.toNat * 2 ^ 16 + lenreg.toNat) :
    hostInstr 0x01 h sel mode addr len data = .linkInit cap hs buf lenreg := by
  have part (lsb : Nat) (w : Word16) (value : addr.toNat / 2 ^ lsb % 2 ^ 16 = w.toNat) :
      addr.extractLsb' lsb 16 = w := by
    apply BitVec.eq_of_toNat_eq
    rw [BitVec.extractLsb'_toNat, Nat.shiftRight_eq_div_pow, value]
  have := hs.isLt
  have := buf.isLt
  have := lenreg.isLt
  simp only [hostInstr, if_true, part 48 cap (by omega), part 32 hs (by omega),
    part 16 buf (by omega), part 0 lenreg (by omega)]

namespace Machine

/-- Settles O2: a frame decodes to the command of its fields, which are those the frame is built
from; the three opcodes that carry data take it from behind the header, the others end there. -/
theorem hostFrameFields : Obligations.HostFrameFields := by
  intro h sel mode addr len data rest length_data head
  have withData (op : Byte) (carries : op = 0x02 ∨ op = 0x04 ∨ op = 0x13) :=
    decodeHost_of_carries h sel mode addr len rest carries length_data
  have bare (op : Byte) (notCarries : ¬ (op = 0x02 ∨ op = 0x04 ∨ op = 0x13)) :=
    decodeHost_of_not_carries h sel mode addr len rest notCarries
  refine ⟨withData 0x02 (by decide), withData 0x04 (by decide), withData 0x13 (by decide),
    bare 0x03 (by decide), bare 0x10 (by decide), bare 0x11 (by decide), bare 0x12 (by decide),
    bare 0x14 (by decide), bare 0x15 (by decide), bare 0x16 (by decide), ?linkInit⟩
  case linkInit =>
    intro cap hs buf lenreg parts
    rw [← hostInstr_linkInit h sel mode len [] parts]
    exact bare 0x01 (by decide)

end Machine

end Sys2Proof
end

section
/-! PROOFS. The CRC-32 checker: the update of its register by one byte (O7), the bytes of the two
request packets with the CRC among them (O4), and the command that runs the checker alone (O10). -/

namespace Sys2Proof

/-! ### The update of the register (R101) -/

theorem crc32jam_nil : crc32jam [] = crcInit := rfl

/-- The checker takes in its bytes one after the other, the last one last. -/
theorem crc32jam_concat (bytes : List Byte) (b : Byte) :
    crc32jam (bytes ++ [b]) = crcByte (crc32jam bytes) b := List.foldl_concat ..

theorem crcBits_eq_iterate (n : Nat) (acc : Word32) : crcBits n acc = crcBit^[n] acc := by
  induction n generalizing acc with
  | zero => rfl
  | succ n ih => rw [crcBits, ih, Function.iterate_succ_apply]

/-- A byte is XORed in and then costs eight bit passes. -/
theorem crcByte_eq_iterate (acc : Word32) (b : Byte) :
    crcByte acc b = crcBit^[8] (acc ^^^ b.setWidth 32) := crcBits_eq_iterate 8 _

/-! ### The bytes of a request (R104, R110) -/

/-- The preamble is the one little-endian field of a packet (R68). -/
theorem enc_preambleValue : enc .le 2 preambleValue.toNat = [0x00, 0x01] := by decide

theorem be16_channelIdValue : be16 channelIdValue = [0x00, 0x00] := by decide

theorem be16_requestFlags : be16 requestFlags = [0x40, 0x00] := by decide

section
variable (reqId cmd : Word16) (scd : List Byte)

/-- A request behind its crc field: channelId 0, ControlDescriptor and payload (R67, R70). -/
def requestBody : List Byte :=
  [0x00, 0x00, 0x40, 0x00] ++ be16 cmd ++ be16 (BitVec.ofNat 16 scd.length) ++ be16 reqId ++ scd

/-- Neither the preamble nor the crc field is among the bytes under the CRC (R103). -/
theorem coveredBytes_request (preamble : Word16) (crc : Word32) :
    coveredBytes cmd
        { preamble := preamble, crc := crc, channelId := channelIdValue, status := requestFlags
          requestId := reqId, payload := scd } =
      requestBody reqId cmd scd := by
  rw [coveredBytes, be16_channelIdValue, be16_requestFlags]
  rfl

/-- The CRC in a request is that of the packet it stands in, though it is computed before it is put
there: the bytes it covers are the same before and after. -/
theorem requestPacket_eq :
    requestPacket reqId cmd scd =
      [0x00, 0x01] ++ be32 (crc32jam (requestBody reqId cmd scd)) ++ requestBody reqId cmd scd := by
  simp only [requestPacket, packetBytes, enc_preambleValue, coveredBytes_request]

end

namespace Machine

/-- Settles O7: the start value is that of R100, and the byte appended last is one pass of R101's
outer loop, which is eight of its inner one. -/
theorem crcUpdate : Obligations.CrcUpdate := by
  refine ⟨crc32jam_nil, fun bytes b => ?appended⟩
  case appended =>
    rw [crc32jam_concat, crcByte_eq_iterate]
    rfl

/-- Settles O4: both packets are a request's layout around their own payload, the address first; the
zeros between address and size in a ReadMem are its reserved field. -/
theorem requestPacketBytes : Obligations.RequestPacketBytes := by
  intro reqId packet
  have layout (cmd : Word16) (scd : List Byte) : requestPacket reqId cmd scd = packet cmd scd :=
    requestPacket_eq reqId cmd scd
  exact ⟨fun a n => ⟨layout cmdReadMem _, length_buildReadMem reqId a n⟩,
    fun a data => ⟨layout cmdWriteMem _, length_buildWriteMem reqId a data⟩⟩

/-! ### CRC_COMPUTE (R106) -/

theorem exec_crcCompute (data : List Byte) (s : State) :
    exec (.crcCompute data) s = execCrcCompute data s := rfl

/-- Settles O10: the accepted command runs its body, which sets `CRC_ACC` and answers OK. -/
theorem crcComputeRuns : Obligations.CrcComputeRuns := by
  intro s data accepted
  rw [exec_crcCompute, execCrcCompute, runCommand_start _ _ _ accepted, State.respondOk_eq_ended]

end Machine

end Sys2Proof
end

section
/-! PROOFS. A Pending ack at a write's DECODE position: what the CRC check, a Timeout and the pending
limit come to, the three outcomes of the ack, and the sleep that follows the last of them (O27). -/

namespace Sys2Proof.Machine

/-! ### The checks on a received packet -/

/-- What DECODE leaves, as the statements write it. -/
theorem State.received_eq_decoded (s : State) (cmd : Word16) (a : Ack) :
    s.received cmd a = s.decoded cmd a := rfl

theorem State.running_decoded {s : State} (h : s.running) (cmd : Word16) (a : Ack) :
    (s.decoded cmd a).running := h

/-- The CRC check raises exactly where the statements do not accept the packet (R105). -/
theorem State.crcRaises_eq_not_crcAccepted (s : State) (cmd : Word16) (a : Ack) :
    s.crcRaises cmd a = !s.crcAccepted cmd a := by
  simp [State.crcRaises, State.crcAccepted, crcDiffers, receivedCrc, bne]

theorem limitExceeded_iff {limit : Option Nat} {p : Nat} :
    limitExceeded limit p = true ↔ ∃ l, limit = some l ∧ l < p := by
  cases limit with
  | none => simp [limitExceeded]
  | some l => simp [limitExceeded]

/-- Without a limit no count exceeds it; with one, no count up to it does (R144). -/
theorem not_limitExceeded_iff {limit : Option Nat} {p : Nat} :
    ¬ limitExceeded limit p = true ↔ limit = none ∨ ∃ l, limit = some l ∧ p ≤ l := by
  cases limit with
  | none => simp [limitExceeded]
  | some l => simp [limitExceeded]

/-- A Timeout within a register operation, as the statements write it (R197): the link goes down,
swallowed or not. -/
theorem State.raiseErr_eq_aborted_of_isTimeout (s : State) {cmd : Instr} {pos : Pos} {task : Task}
    (h : s.seq = .busy cmd pos) (ht : pos.task? = some task) {e : Err} (he : isTimeout e = true) :
    s.raiseErr e =
      ({ s with linkUp := false } : State).aborted task (errCode e).1 (errCode e).2 := by
  have down : s.linkDownOnTimeout e = { s with linkUp := false } := by
    simp [State.linkDownOnTimeout, he]
  have swallows : s.swallows = true ↔ task = .dropClose := by simp [s.swallows_busy h, ht]
  simp only [State.raiseErr, State.aborted, swallows, down, State.respondOk_eq_ended,
    State.respondErr_eq_failed]

/-! ### Pending ack (R115, R144) -/

/-- A block put before a sleep sleeps in its next step and then stands at the response-ready poll
(R131). -/
theorem step_put_sleep {s : State} (running : s.running) (c : Instr) (op : RegOp) (ms k : Nat)
    (task : Task) :
    step { s with seq := .busy c (.chunk op (.sleep ms k) task) } =
      .next { s with
        trace := s.trace ++ [.sleep ms], seq := .busy c (.chunk op (.readyPoll k) task) } :=
  step_sleep running rfl

theorem exec_pendingAck (a : Ack) (s : State) : exec (.pendingAck a) s = execPendingAck a s := rfl

section
variable {s : State} {c : Instr} {op : RegOp} {q : List Byte} {task : Task} {a : Ack}

theorem exec_pendingAck_of_decode (hs : s.seq = .busy c (.chunk op (.decode q) task)) :
    exec (.pendingAck a) s = .next (s.onPendingAck a op task) := by
  rw [exec_pendingAck, execPendingAck, atDecode, hs]

variable {addr : Word64} {data : List Byte} {cur : Chunk} {rest : List Chunk} {id : Word16} {p : Nat}

/-- The three outcomes of a Pending ack for a write, in the order of the checks; after the last,
nothing is sent again and the count has advanced (R144). -/
theorem State.onPendingAck_write (accepted : s.crcAccepted cmdPendingAck a = true) :
    s.onPendingAck a (.write addr data cur rest id p) task =
      if a.payload.length < 4 then (s.decoded cmdPendingAck a).raiseErr .shortPending
      else if limitExceeded s.cfg.pendingLimit (p + 1) then
        (s.decoded cmdPendingAck a).raiseErr .pendingTimeout
      else
        (s.decoded cmdPendingAck a).goto
          (.chunk (.write addr data cur rest id (p + 1)) (.sleep (retryAfter a) 0) task) := by
  have noRaise : ¬ s.crcRaises cmdPendingAck a = true := by
    simp [s.crcRaises_eq_not_crcAccepted, accepted]
  simp only [State.onPendingAck, if_neg noRaise, s.received_eq_decoded]

end

/-- Settles O27: of the ack's three outcomes the first two are raises, which end the command, the
second with the link down; the third moves the block before a sleep, so that the next step sleeps. -/
theorem pendingAckSleeps : Obligations.PendingAckSleeps := by
  intro s c addr data cur rest id p q task a position accepted
  have decoding : (s.decoded cmdPendingAck a).seq =
      .busy c (.chunk (.write addr data cur rest id p) (.decode q) task) := position
  rw [exec_pendingAck_of_decode position, State.onPendingAck_write accepted]
  refine ⟨fun short => ?short, fun l complete limit past => ?exceeded,
    fun complete allowed => ?waits⟩
  case short =>
    rw [if_pos short, State.raiseErr_eq_aborted _ decoding rfl _ rfl]
    rfl
  case exceeded =>
    rw [if_neg complete.not_gt, if_pos (limitExceeded_iff.mpr ⟨l, limit, past⟩),
      State.raiseErr_eq_aborted_of_isTimeout _ decoding rfl rfl]
    rfl
  case waits =>
    rw [if_neg complete.not_gt, if_neg (not_limitExceeded_iff.mpr allowed),
      State.goto_busy _ decoding]
    exact ⟨_, rfl, rfl, fun running => step_put_sleep (State.running_decoded running ..) ..⟩

end Sys2Proof.Machine
end

section
/-! PROOFS. The response-ready poll below its limit: one read of the flag, the sleep after a read
that does not match, and both for any number of mismatches before the read that matches (O19). -/

namespace Sys2Proof.Machine

/-! ### The limit of a poll (R129) -/

/-- Without a limit no count of mismatches reaches it; with one, none below it does. -/
theorem not_limitReached_iff {limit : Option Nat} {k : Nat} :
    ¬ limitReached limit k = true ↔ limit = none ∨ ∃ l, limit = some l ∧ k < l := by
  cases limit with
  | none => simp [limitReached]
  | some l => simp [limitReached]

/-- A limit above a count is above every smaller one. -/
theorem not_limitReached_of_le {limit : Option Nat} {j k : Nat} (le : j ≤ k)
    (below : ¬ limitReached limit k = true) : ¬ limitReached limit j = true := by
  rw [not_limitReached_iff] at below ⊢
  exact below.imp_right fun ⟨l, limited, lt⟩ => ⟨l, limited, le.trans_lt lt⟩

/-! ### One step of an exchange -/

section
variable {s : State} {c : Instr} {op : RegOp} {task : Task}

/-- A primitive that completes is recorded, and the exchange advances on the bytes it returned. -/
theorem step_completed {phase : Phase} {p : Primitive} {bytes : List Byte} {a : Answer}
    {es : List Event} {as : List Answer} (running : s.running)
    (issues : s.phasePrimitive phase = some p) (completes : p.outcome a = .ok bytes) :
    step (s.inPhase c op phase task es (a :: as)) =
      .next ((s.inPhase c op phase task (es ++ [p.event (.ok bytes)]) as).advance
        op phase task bytes) := by
  rw [step_primitive (s := s.inPhase c op phase task es (a :: as)) running rfl issues rfl,
    State.feed_ok _ completes (cmd := c) (op := op) (phase := phase) (task := task) rfl]
  simp only [State.inPhase, State.emit, List.append_assoc]

@[simp] theorem State.inPhase_cfg (phase : Phase) (es : List Event) (as : List Answer) :
    (s.inPhase c op phase task es as).cfg = s.cfg := rfl

theorem State.inPhase_goto (phase next : Phase) (es : List Event) (as : List Answer) :
    (s.inPhase c op phase task es as).goto (.chunk op next task) =
      s.inPhase c op next task es as := rfl

theorem step_inPhase_sleep (running : s.running) (ms k : Nat) (es : List Event) (as : List Answer) :
    step (s.inPhase c op (.sleep ms k) task es as) =
      .next (s.inPhase c op (.readyPoll k) task (es ++ [.sleep ms]) as) := by
  rw [step_sleep (s := s.inPhase c op (.sleep ms k) task es as) running rfl]
  simp only [State.inPhase, List.append_assoc]

/-! ### The response-ready poll (R131) -/

/-- The trace entry of a read of the response-ready flag that returns `v`. -/
def State.readyRead (s : State) (v : List Byte) : Event :=
  .memRead (s.aHs + s.cfg.oRx) s.cfg.hsWidth (some v)

/-- The trace entries of one mismatch: the read that returns `v`, and the sleep after it. -/
def State.readyMiss (s : State) (v : List Byte) : List Event :=
  [s.readyRead v, .sleep s.cfg.rxPollDelay]

/-- The awaited value is as wide as the flag (R8), so that a read can return it. -/
theorem State.length_vRxReady (running : s.running) :
    s.cfg.vRxReady.length = s.cfg.hsWidth := by
  obtain ⟨legal, -⟩ := running
  obtain ⟨⟨-, -, -, -, ready, -⟩, -⟩ := configR8_iff.mp (configOk_iff.mp legal).1
  exact ready

variable {v : List Byte} {k : Nat} {es : List Event} {as : List Answer}

theorem step_readyPoll (running : s.running) (wide : v.length = s.cfg.hsWidth) :
    step (s.inPhase c op (.readyPoll k) task es (.done v :: as)) =
      .next ((s.inPhase c op (.readyPoll k) task (es ++ [s.readyRead v]) as).advance
        op (.readyPoll k) task v) :=
  step_completed running rfl ((Primitive.outcome_read ..).trans (if_pos wide))

/-- The matching read: no sleep follows it. -/
theorem step_readyPoll_match (running : s.running) :
    step (s.inPhase c op (.readyPoll k) task es (.done s.cfg.vRxReady :: as)) =
      .next (s.inPhase c op .readLength task (es ++ [s.readyRead s.cfg.vRxReady]) as) := by
  rw [step_readyPoll running (State.length_vRxReady running), State.advance,
    State.inPhase_cfg, if_pos rfl, State.inPhase_goto]

/-- A mismatch below the limit: the block stands before the sleep. -/
theorem step_readyPoll_miss (running : s.running) (wide : v.length = s.cfg.hsWidth)
    (differs : v ≠ s.cfg.vRxReady) (below : ¬ limitReached s.cfg.pollLimit (k + 1) = true)
    (interval : 0 < s.cfg.rxPollDelay) :
    step (s.inPhase c op (.readyPoll k) task es (.done v :: as)) =
      .next (s.inPhase c op (.sleep s.cfg.rxPollDelay (k + 1)) task
        (es ++ [s.readyRead v]) as) := by
  rw [step_readyPoll running wide, State.advance, State.pollMiss, State.inPhase_cfg, if_neg differs,
    if_neg below, readyPollAgain, if_pos interval, State.inPhase_goto]

/-- A mismatch below the limit with its sleep: the poll stands before the next read. -/
theorem steps_readyPoll_miss (running : s.running) (wide : v.length = s.cfg.hsWidth)
    (differs : v ≠ s.cfg.vRxReady) (below : ¬ limitReached s.cfg.pollLimit (k + 1) = true)
    (interval : 0 < s.cfg.rxPollDelay) :
    steps 2 (s.inPhase c op (.readyPoll k) task es (.done v :: as)) =
      .next (s.inPhase c op (.readyPoll (k + 1)) task (es ++ s.readyMiss v) as) := by
  rw [steps_succ (step_readyPoll_miss running wide differs below interval),
    steps_succ (step_inPhase_sleep running ..), List.append_assoc]
  rfl

/-- Any number of mismatches below the limit, each with its sleep. -/
theorem steps_readyPoll_misses (running : s.running) (interval : 0 < s.cfg.rxPollDelay)
    {vs : List (List Byte)} (misses : ∀ v ∈ vs, v.length = s.cfg.hsWidth ∧ v ≠ s.cfg.vRxReady)
    (below : ¬ limitReached s.cfg.pollLimit (k + vs.length) = true) :
    steps (2 * vs.length) (s.inPhase c op (.readyPoll k) task es (vs.map .done ++ as)) =
      .next (s.inPhase c op (.readyPoll (k + vs.length)) task
        (es ++ vs.flatMap s.readyMiss) as) := by
  induction vs generalizing k es with
  | nil => simp [steps]
  | cons v vs ih =>
    obtain ⟨⟨wide, differs⟩, others⟩ := List.forall_mem_cons.mp misses
    have count : k + (v :: vs).length = k + 1 + vs.length := by
      rw [List.length_cons]
      omega
    rw [count] at below ⊢
    have first : ¬ limitReached s.cfg.pollLimit (k + 1) = true :=
      not_limitReached_of_le (Nat.le_add_right _ _) below
    calc steps (2 * (vs.length + 1)) (s.inPhase c op (.readyPoll k) task es
          (.done v :: (vs.map .done ++ as)))
      _ = steps (2 + 2 * vs.length) _ := by rw [Nat.mul_succ, Nat.add_comm]
      _ = steps (2 * vs.length) _ :=
        steps_add (steps_readyPoll_miss running wide differs first interval)
      _ = _ := ih others below
      _ = _ := by rw [List.flatMap_cons, List.append_assoc]

end

/-- Settles O19: the mismatches with their sleeps, two steps each, then the matching read. -/
theorem readyPollSleeps : Obligations.ReadyPollSleeps := by
  intro s c op task k vs rest running limit interval polling misses answers
  have below := not_limitReached_iff.mpr limit
  rw [List.append_assoc] at answers
  calc steps (2 * vs.length + 1) s
    _ = steps (2 * vs.length + 1) (s.inPhase c op (.readyPoll k) task []
          (vs.map .done ++ .done s.cfg.vRxReady :: rest)) := by
      rw [← List.singleton_append, ← answers, State.inPhase_self polling]
    _ = steps 1 _ := steps_add (steps_readyPoll_misses running interval misses below)
    _ = .next (s.inPhase c op .readLength task
          (vs.flatMap s.readyMiss ++ [s.readyRead s.cfg.vRxReady]) rest) :=
      steps_succ (step_readyPoll_match running)
    _ = _ := by
      rw [State.inPhase, ← List.append_assoc]
      rfl

end Sys2Proof.Machine
end

section
/-! PROOFS. CHUNKS: which chunk stands at which index and how long it is, the bytes the chunks
cover, and the register address of a chunk (O13). -/

namespace Sys2Proof.Machine

/-! ### The chunk at an index (R141) -/

theorem getElem?_chunks {n lim i : Nat} {c : Chunk} :
    (chunks n lim)[i]? = some c ↔
      i < (chunks n lim).length ∧ c = ⟨i * lim, min lim (n - i * lim)⟩ := by
  rw [List.getElem?_eq_some_iff]
  simp [chunks, eq_comm]

section
variable {n lim i : Nat}

/-- There is a chunk at an index exactly if some of the data lies at or after its offset. -/
theorem lt_length_chunks (hlim : 1 ≤ lim) : i < (chunks n lim).length ↔ i * lim < n := by
  rw [length_chunks, Nat.lt_div_iff_mul_lt hlim]
  omega

/-- A chunk that another one follows is full. -/
theorem chunkSize_of_not_last (follows : (i + 1) * lim < n) : min lim (n - i * lim) = lim := by
  rw [Nat.succ_mul] at follows
  omega

/-- The last chunk has what is left over by the full ones before it, and is full itself where
nothing is left over. -/
theorem chunkSize_of_last (starts : i * lim < n) (ends : n ≤ (i + 1) * lim) :
    min lim (n - i * lim) = if n % lim = 0 then lim else n % lim := by
  rw [Nat.succ_mul] at ends
  obtain ⟨r, rfl⟩ := Nat.exists_eq_add_of_lt starts
  have left : i * lim + r + 1 - i * lim = r + 1 := by omega
  have remainder : (i * lim + r + 1) % lim = (r + 1) % lim :=
    Nat.mul_add_mod_self_right i lim (r + 1)
  rw [left, remainder]
  rcases (show r + 1 ≤ lim by omega).eq_or_lt with full | short
  · rw [full, Nat.mod_self, if_pos rfl, min_self]
  · rw [Nat.mod_eq_of_lt short, if_neg r.succ_ne_zero, min_eq_right short.le]

end

/-! ### The bytes of the chunks -/

/-- The first `k` chunks are the first `k * lim` bytes. -/
theorem flatMap_slice_range (data : List Byte) (lim k : Nat) :
    (List.range k).flatMap (fun i => slice data (i * lim) (min lim (data.length - i * lim))) =
      data.take (k * lim) := by
  induction k with
  | zero => rw [Nat.zero_mul]; rfl
  | succ k ih =>
    have next : slice data (k * lim) (min lim (data.length - k * lim)) =
        (data.drop (k * lim)).take lim := by
      rw [slice, ← List.length_drop, ← List.take_eq_take_min]
    rw [List.range_succ, List.flatMap_append, ih, List.flatMap_singleton, next, Nat.succ_mul,
      List.take_add]

/-- The chunks joined are the data. -/
theorem flatMap_slice_chunks (data : List Byte) {lim : Nat} (hlim : 1 ≤ lim) :
    (chunks data.length lim).flatMap (fun c => slice data c.off c.size) = data := by
  have covers : data.length ≤ (chunks data.length lim).length * lim :=
    Nat.le_of_not_lt fun beyond => Nat.lt_irrefl _ ((lt_length_chunks hlim).mpr beyond)
  rw [length_chunks] at covers
  rw [chunks, List.flatMap_map, flatMap_slice_range, List.take_of_length_le covers]

theorem toNat_chunkAddr (a : Word64) (c : Chunk) :
    (chunkAddr a c).toNat = (a.toNat + c.off) % 2 ^ 64 := by
  rw [chunkAddr, BitVec.toNat_add, BitVec.toNat_ofNat, Nat.add_mod_mod]

/-- Settles O13: an index has a chunk exactly if its offset lies inside the data, so a chunk that is
followed by another is full and the last one ends the data. -/
theorem chunksLaw : Obligations.ChunksLaw := by
  intro n lim hlim
  refine ⟨length_chunks n lim, fun i c found => ?chunk, chunks_zero lim, ?cover, toNat_chunkAddr⟩
  case chunk =>
    obtain ⟨inside, rfl⟩ := getElem?_chunks.mp found
    have starts : i * lim < n := (lt_length_chunks hlim).mp inside
    refine ⟨rfl, rfl, fun follows => ?full, fun last => ?last⟩
    case full => exact chunkSize_of_not_last ((lt_length_chunks hlim).mp follows)
    case last =>
      have ends : ¬ (i + 1) * lim < n := fun beyond =>
        last.not_lt ((lt_length_chunks hlim).mpr beyond)
      exact chunkSize_of_last starts (Nat.le_of_not_lt ends)
  case cover =>
    rintro data rfl
    exact flatMap_slice_chunks data hlim

end Sys2Proof.Machine
end

section
/-! PROOFS. LINK_INIT: its two checks and the link state it writes (O12). -/

namespace Sys2Proof.Machine

/-- A raise in a command's first line, of any error but a Timeout: the command ends and nothing else
changes (R193). -/
theorem State.raiseErr_eq_failed_of_start (s : State) {cmd : Instr} (h : s.seq = .busy cmd .start)
    (e : Err) (he : isTimeout e = false) :
    s.raiseErr e = s.failed (errCode e).1 (errCode e).2 := by
  have linkStays : ({ s with linkUp := s.linkUp && !isTimeout e } : State) = s := by simp [he]
  rw [s.raiseErr_of_not_swallows (s.swallows_start h), linkStays]

theorem State.anyHandleLive_iff (s : State) :
    s.anyHandleLive = true ↔ ∃ e ∈ s.handles, e.valid = true := List.any_eq_true

theorem exec_linkInit (cap hs buf lenreg : Word16) (s : State) :
    exec (.linkInit cap hs buf lenreg) s = execLinkInit cap hs buf lenreg s := rfl

/-- The first line of LINK_INIT, its checks in their order (R140). -/
theorem exec_linkInit_of_start {s : State} {cap hs buf lenreg : Word16}
    (accepted : s.seq = .busy (.linkInit cap hs buf lenreg) .start) :
    exec (.linkInit cap hs buf lenreg) s = .next
      (if s.anyHandleLive then s.failed 3 14
      else if cap.toNat < minCapacity then s.failed 3 13
      else (s.establish cap hs buf lenreg).ended 0 0 0
        (BitVec.ofNat 32 (min cap.toNat mpsLimit)) []) := by
  rw [exec_linkInit, execLinkInit, runCommand_start _ _ _ accepted, State.linkInit,
    s.raiseErr_eq_failed_of_start accepted .handlesLive rfl,
    s.raiseErr_eq_failed_of_start accepted .badCapacity rfl, State.respondOk_eq_ended]
  rfl

/-- Settles O12: each premise decides the checks it is about, and the last branch writes the fields
the statement lists. -/
theorem linkInitEstablishes : Obligations.LinkInitEstablishes := by
  intro s cap hs buf lenreg accepted
  have noneLive (free : ∀ e ∈ s.handles, e.valid = false) : ¬ s.anyHandleLive = true := by
    rw [s.anyHandleLive_iff]
    rintro ⟨e, he, live⟩
    exact Bool.false_ne_true ((free e he).symm.trans live)
  rw [exec_linkInit_of_start accepted]
  refine ⟨fun live => ?handlesLive, fun free small => ?badCapacity, fun free enough => ?established⟩
  case handlesLive =>
    rw [if_pos (s.anyHandleLive_iff.mpr live)]
  case badCapacity =>
    have below : cap.toNat < minCapacity := small
    rw [if_neg (noneLive free), if_pos below]
  case established =>
    have notBelow : ¬ cap.toNat < minCapacity := enough.not_gt
    rw [if_neg (noneLive free), if_neg notBelow]
    rfl

end Sys2Proof.Machine
end

section
/-! PROOFS. The acceptance of the acknowledgments at a DECODE position: what each of them comes to
for a write (O25) and for a read (O26), the CRC check having raised nothing. -/

namespace Sys2Proof.Machine

theorem State.not_crcRaises {s : State} {cmd : Word16} {a : Ack}
    (accepted : s.crcAccepted cmd a = true) : ¬ s.crcRaises cmd a = true := by
  simp [s.crcRaises_eq_not_crcAccepted, accepted]

theorem atDecode_of_decode {s : State} {c : Instr} {op : RegOp} {q : List Byte} {task : Task}
    (position : s.seq = .busy c (.chunk op (.decode q) task)) (f : RegOp → Task → State) :
    atDecode f s = .next (f op task) := by
  rw [atDecode, position]

theorem exec_readMemAck (a : Ack) (s : State) :
    exec (.readMemAck a) s = atDecode (s.onReadMemAck a) s := rfl

theorem exec_writeMemAck (a : Ack) (s : State) :
    exec (.writeMemAck a) s = atDecode (s.onWriteMemAck a) s := rfl

theorem exec_undefinedCommandId (cmd : Word16) (a : Ack) (s : State) :
    exec (.undefinedCommandId cmd a) s = atDecode (fun _ _ => s.onOtherPacket cmd a) s := rfl

/-- The refusal of a received packet, for any reason but a Timeout: after DECODE the command ends
(R193). -/
theorem State.decoded_raiseErr {s : State} {c : Instr} {op : RegOp} {q : List Byte} {task : Task}
    (position : s.seq = .busy c (.chunk op (.decode q) task)) (cmd : Word16) (a : Ack) (e : Err)
    (he : isTimeout e = false) :
    (s.decoded cmd a).raiseErr e = (s.decoded cmd a).aborted task (errCode e).1 (errCode e).2 :=
  State.raiseErr_eq_aborted (s.decoded cmd a) position rfl e he

/-- A packet that is no acknowledgment is refused for its command id, by a write and by a read. -/
theorem exec_undefinedCommandId_of_accepted {s : State} {c : Instr} {op : RegOp} {q : List Byte}
    {task : Task} {cmd : Word16} {a : Ack}
    (position : s.seq = .busy c (.chunk op (.decode q) task))
    (accepted : s.crcAccepted cmd a = true) :
    exec (.undefinedCommandId cmd a) s = .next ((s.decoded cmd a).aborted task 2 1) := by
  rw [exec_undefinedCommandId, atDecode_of_decode position, State.onOtherPacket,
    if_neg (State.not_crcRaises accepted), s.received_eq_decoded,
    State.decoded_raiseErr position _ _ _ rfl]
  rfl

/-- The position after the current chunk of a register operation that has read `payload`: before the
next chunk's request, or past the operation (R143, R149). -/
def RegOp.afterChunk (op : RegOp) (payload : List Byte) (task : Task) : Pos :=
  match op with
  | .write _ _ _ [] _ _ => .opDone [] task
  | .write addr data _ (k :: ks) id p => .chunk (.write addr data k ks id p) .encode task
  | .read _ _ [] out => .opDone (out ++ payload) task
  | .read addr _ (k :: ks) out => .chunk (.read addr k ks (out ++ payload)) .encode task

theorem State.chunkDone_busy {s : State} {cmd : Instr} {pos : Pos} (h : s.seq = .busy cmd pos)
    (op : RegOp) (payload : List Byte) (task : Task) :
    s.chunkDone op payload task =
      { s with seq := .busy cmd (op.afterChunk payload task) } := by
  rw [← s.goto_busy h]
  cases op with
  | write _ _ _ rest _ _ => cases rest <;> rfl
  | read _ _ rest _ => cases rest <;> rfl

/-- The chunk is over and `REQ_ID` has been written, as at the end of ACCEPT_WRITE_ACK. -/
theorem State.chunkDone_withReqId {s : State} {cmd : Instr} {pos : Pos} (h : s.seq = .busy cmd pos)
    (reqId : Word16) (op : RegOp) (payload : List Byte) (task : Task) :
    ({ s with reqId := reqId } : State).chunkDone op payload task =
      { s with reqId := reqId, seq := .busy cmd (op.afterChunk payload task) } :=
  State.chunkDone_busy (s := { s with reqId := reqId }) h op payload task

variable {s : State} {c : Instr} {q : List Byte} {task : Task} {a : Ack} {cur : Chunk}
  {rest : List Chunk} {addr : Word64}

/-! ### An acknowledgment received for a write (R145) -/

section
variable {data : List Byte} {id : Word16} {p : Nat}
  (position : s.seq = .busy c (.chunk (.write addr data cur rest id p) (.decode q) task))
include position

theorem exec_readMemAck_of_write (accepted : s.crcAccepted cmdReadMemAck a = true) :
    exec (.readMemAck a) s = .next ((s.decoded cmdReadMemAck a).aborted task 2 1) := by
  rw [exec_readMemAck, atDecode_of_decode position, State.onReadMemAck,
    if_neg (State.not_crcRaises accepted), s.received_eq_decoded,
    State.decoded_raiseErr position _ _ _ rfl]
  rfl

/-- ACCEPT_WRITE_ACK past the command id: the status, then the request id. -/
theorem exec_writeMemAck_of_write (accepted : s.crcAccepted cmdWriteMemAck a = true) :
    exec (.writeMemAck a) s = .next
      (if a.status ≠ s.cfg.statusSuccess then (s.decoded cmdWriteMemAck a).aborted task 2 2
      else if a.requestId ≠ id then (s.decoded cmdWriteMemAck a).aborted task 2 3
      else { s.decoded cmdWriteMemAck a with
        reqId := nextId s.reqId
        seq := .busy c ((RegOp.write addr data cur rest id p).afterChunk [] task) }) := by
  have decoding : (s.decoded cmdWriteMemAck a).seq =
      .busy c (.chunk (.write addr data cur rest id p) (.decode q) task) := position
  rw [exec_writeMemAck, atDecode_of_decode position, State.onWriteMemAck,
    if_neg (State.not_crcRaises accepted), s.received_eq_decoded,
    State.decoded_raiseErr position _ _ .badStatus rfl,
    State.decoded_raiseErr position _ _ .badRequestId rfl, State.chunkDone_withReqId decoding]
  rfl

end

/-! ### An acknowledgment received for a read (R150) -/

section
variable {out : List Byte}
  (position : s.seq = .busy c (.chunk (.read addr cur rest out) (.decode q) task))
include position

theorem exec_writeMemAck_of_read (accepted : s.crcAccepted cmdWriteMemAck a = true) :
    exec (.writeMemAck a) s = .next ((s.decoded cmdWriteMemAck a).aborted task 2 1) := by
  rw [exec_writeMemAck, atDecode_of_decode position, State.onWriteMemAck,
    if_neg (State.not_crcRaises accepted), s.received_eq_decoded,
    State.decoded_raiseErr position _ _ _ rfl]
  rfl

theorem exec_pendingAck_of_read (accepted : s.crcAccepted cmdPendingAck a = true) :
    exec (.pendingAck a) s = .next ((s.decoded cmdPendingAck a).aborted task 2 1) := by
  rw [exec_pendingAck_of_decode position, State.onPendingAck,
    if_neg (State.not_crcRaises accepted), s.received_eq_decoded,
    State.decoded_raiseErr position _ _ _ rfl]
  rfl

/-- The acceptance of a ReadMem ack past the command id: the status, then the length. -/
theorem exec_readMemAck_of_read (accepted : s.crcAccepted cmdReadMemAck a = true) :
    exec (.readMemAck a) s = .next
      (if a.status ≠ s.cfg.statusSuccess then (s.decoded cmdReadMemAck a).aborted task 2 2
      else if a.payload.length ≠ cur.size then (s.decoded cmdReadMemAck a).aborted task 2 8
      else { s.decoded cmdReadMemAck a with
        seq := .busy c ((RegOp.read addr cur rest out).afterChunk a.payload task) }) := by
  have decoding : (s.decoded cmdReadMemAck a).seq =
      .busy c (.chunk (.read addr cur rest out) (.decode q) task) := position
  rw [exec_readMemAck, atDecode_of_decode position, State.onReadMemAck,
    if_neg (State.not_crcRaises accepted), s.received_eq_decoded,
    State.decoded_raiseErr position _ _ .badStatus rfl,
    State.decoded_raiseErr position _ _ .badReadLength rfl, State.chunkDone_busy decoding]
  rfl

end

/-! ### The two statements -/

/-- Settles O25: the first check that fails decides the refusal; where none does, the position after
the chunk depends on whether another one follows. -/
theorem writeAckAccepted : Obligations.WriteAckAccepted := by
  intro s c addr data cur rest id p q task a position
  refine ⟨exec_readMemAck_of_write position,
    fun _ => exec_undefinedCommandId_of_accepted position,
    fun crc failure => ?badStatus, fun crc success other => ?badRequestId,
    fun crc success own => ?accepted⟩
  case badStatus =>
    rw [exec_writeMemAck_of_write position crc, if_pos failure]
    rfl
  case badRequestId =>
    rw [exec_writeMemAck_of_write position crc, if_neg (not_not.mpr success),
      if_pos other]
    rfl
  case accepted =>
    rw [exec_writeMemAck_of_write position crc, if_neg (not_not.mpr success),
      if_neg (not_not.mpr own)]
    cases rest <;> rfl

/-- Settles O26: as for a write, with the length in the place of the request id; the payload is
appended to the bytes read before it. -/
theorem readAckAccepted : Obligations.ReadAckAccepted := by
  intro s c addr cur rest out q task a position
  refine ⟨exec_writeMemAck_of_read position, exec_pendingAck_of_read position,
    fun _ => exec_undefinedCommandId_of_accepted position,
    fun crc failure => ?badStatus, fun crc success other => ?badReadLength,
    fun crc success same => ?accepted⟩
  case badStatus =>
    rw [exec_readMemAck_of_read position crc, if_pos failure]
    rfl
  case badReadLength =>
    rw [exec_readMemAck_of_read position crc, if_neg (not_not.mpr success),
      if_pos other]
    rfl
  case accepted =>
    rw [exec_readMemAck_of_read position crc, if_neg (not_not.mpr success),
      if_neg (not_not.mpr same)]
    cases rest <;> rfl

end Sys2Proof.Machine
end

section
/-! PROOFS. A packet read back from its bytes: the parser is the inverse of the layout of R67. -/

namespace Sys2Proof

theorem rdbe16_be16_append (v : Word16) (post : List Byte) : rdbe16 (be16 v ++ post) 0 = v := by
  have field : slice (be16 v ++ post) 0 2 = be16 v := by
    simpa only [length_be16] using slice_append_left (be16 v) post
  have fits : v.toNat % 256 ^ 2 = v.toNat := Nat.mod_eq_of_lt v.isLt
  rw [rdbe16, field, be16, dec_enc, fits, BitVec.ofNat_toNat, BitVec.setWidth_eq]

/-- A field past the first `n` bytes. -/
theorem rdbe16_append_right {pre : List Byte} {n : Nat} (length_pre : pre.length = n)
    (post : List Byte) (o : Nat) : rdbe16 (pre ++ post) (n + o) = rdbe16 post o := by
  rw [rdbe16, ← length_pre, slice_append_right, rdbe16]

section
variable (cmd : Word16) (a : Ack)

theorem preamble_packetBytes :
    BitVec.ofNat 16 (dec .le (slice (packetBytes cmd a) 0 2)) = a.preamble := by
  have field : slice (packetBytes cmd a) 0 2 = enc .le 2 a.preamble.toNat := by
    simpa [packetBytes] using
      slice_append_left (enc .le 2 a.preamble.toNat) (be32 a.crc ++ coveredBytes cmd a)
  have fits : a.preamble.toNat % 256 ^ 2 = a.preamble.toNat := Nat.mod_eq_of_lt a.preamble.isLt
  rw [field, dec_enc, fits, BitVec.ofNat_toNat, BitVec.setWidth_eq]

theorem crc_packetBytes : rdbe32 (packetBytes cmd a) 2 = a.crc := by
  simpa [packetBytes] using
    rdbe32_append_be32 (enc .le 2 a.preamble.toNat) (coveredBytes cmd a) a.crc

/-- The big-endian 16-bit fields, from the channelId on. -/
theorem rdbe16_packetBytes :
    rdbe16 (packetBytes cmd a) 6 = a.channelId ∧ rdbe16 (packetBytes cmd a) 8 = a.status ∧
      rdbe16 (packetBytes cmd a) 10 = cmd ∧
      rdbe16 (packetBytes cmd a) 12 = BitVec.ofNat 16 a.payload.length ∧
      rdbe16 (packetBytes cmd a) 14 = a.requestId := by
  have covered (o : Nat) : rdbe16 (packetBytes cmd a) (6 + o) = rdbe16 (coveredBytes cmd a) o :=
    rdbe16_append_right (by simp) (coveredBytes cmd a) o
  have past (v : Word16) (post : List Byte) (o : Nat) :
      rdbe16 (be16 v ++ post) (2 + o) = rdbe16 post o :=
    rdbe16_append_right (length_be16 v) post o
  simp only [coveredBytes, List.append_assoc] at covered
  refine ⟨(covered 0).trans ?_, (covered 2).trans ?_, (covered 4).trans ?_, (covered 6).trans ?_,
    (covered 8).trans ?_⟩
  · exact rdbe16_be16_append _ _
  · exact (past _ _ 0).trans (rdbe16_be16_append _ _)
  · exact (past _ _ 2).trans ((past _ _ 0).trans (rdbe16_be16_append _ _))
  · exact (past _ _ 4).trans ((past _ _ 2).trans ((past _ _ 0).trans (rdbe16_be16_append _ _)))
  · exact (past _ _ 6).trans ((past _ _ 4).trans ((past _ _ 2).trans ((past _ _ 0).trans
      (rdbe16_be16_append _ _))))

theorem drop_packetBytes : (packetBytes cmd a).drop hdrSize = a.payload := by
  simpa [packetBytes, coveredBytes, hdrSize] using
    List.drop_left (l₁ := enc .le 2 a.preamble.toNat ++ be32 a.crc ++ be16 a.channelId ++
      be16 a.status ++ be16 cmd ++ be16 (BitVec.ofNat 16 a.payload.length) ++ be16 a.requestId)
      (l₂ := a.payload)

variable {a}

theorem parsePacket_packetBytes (fits : a.payload.length < 2 ^ 16) :
    parsePacket (packetBytes cmd a) = some (cmd, a) := by
  obtain ⟨channel, status, command, len, request⟩ := rdbe16_packetBytes cmd a
  have length_payload : (BitVec.ofNat 16 a.payload.length).toNat = a.payload.length :=
    Nat.mod_eq_of_lt fits
  have length_packet : (packetBytes cmd a).length = hdrSize + a.payload.length :=
    length_packetBytes cmd a
  have complete : ¬ hdrSize + a.payload.length < hdrSize := by omega
  simp only [parsePacket, length_packet, len, length_payload, complete, ne_eq, not_true_eq_false,
    if_false, channel, status, command, request, preamble_packetBytes, crc_packetBytes,
    drop_packetBytes]

theorem decodeReceived_packetBytes (fits : a.payload.length < 2 ^ 16) :
    decodeReceived (packetBytes cmd a) = .ok (ackInstr cmd a) := by
  rw [decodeReceived, parsePacket_packetBytes cmd fits]

end

end Sys2Proof
end

section
/-! PROOFS. Register operations on a prompt channel: one exchange up to the DECODE of its
acknowledgment, one chunk, and all chunks of a register write or read (43_register_link.md R143,
R149). -/

namespace Sys2Proof.Machine

/-! ### One exchange (R125, R130, R113) -/

theorem State.fetch_decode {s : State} {c : Instr} {op : RegOp} {q : List Byte} {task : Task}
    {i : Instr} (position : s.seq = .busy c (.chunk op (.decode q) task))
    (decodes : decodeReceived q = .ok i) : s.fetch = some (i, s) := by
  simp [State.fetch, position, decodes]

/-- The awaited values are as wide as the flags, and the length register has two bytes (R8). -/
theorem State.widths {s : State} (running : s.running) :
    (s.cfg.vBusyClear.length = s.cfg.hsWidth ∧ s.cfg.vTxConsumed.length = s.cfg.hsWidth ∧
      s.cfg.vRxReady.length = s.cfg.hsWidth ∧ s.cfg.vRxIdle.length = s.cfg.hsWidth) ∧
    2 ≤ s.cfg.lenWidth := by
  obtain ⟨legal, -⟩ := running
  obtain ⟨⟨busyClear, -, txConsumed, -, rxReady, -, rxIdle, -⟩, -, -, -, -, lenMin, -⟩ :=
    configR8_iff.mp (configOk_iff.mp legal).1
  exact ⟨⟨busyClear, txConsumed, rxReady, rxIdle⟩, lenMin⟩

/-- `s` before the DECODE of the acknowledgment `k`, `a` to the request `packet`, the answers `as`
being left. -/
def State.beforeDecode (s : State) (c : Instr) (op : RegOp) (task : Task) (packet : List Byte)
    (k : Word16) (a : Ack) (as : List Answer) : State :=
  { s with
    txBuf := packet
    crcAcc := crc32jam (packet.drop 6)
    seq := .busy c (.chunk op (.decode (packetBytes k a)) task)
    trace := s.trace ++ s.sendEvents packet ++ s.receiveEvents (packetBytes k a)
    answers := as }

/-- `s` at another position and with other answers at hand. -/
def State.moved (s : State) (seq : Seq) (as : List Answer) : State :=
  { s with seq := seq, answers := as }

@[simp] theorem State.moved_cfg (s : State) (seq : Seq) (as : List Answer) :
    (s.moved seq as).cfg = s.cfg := rfl
@[simp] theorem State.moved_mps (s : State) (seq : Seq) (as : List Answer) :
    (s.moved seq as).mps = s.mps := rfl
@[simp] theorem State.moved_resetLine (s : State) (seq : Seq) (as : List Answer) :
    (s.moved seq as).resetLine = s.resetLine := rfl
@[simp] theorem State.moved_reqId (s : State) (seq : Seq) (as : List Answer) :
    (s.moved seq as).reqId = s.reqId := rfl
@[simp] theorem State.moved_seq (s : State) (seq : Seq) (as : List Answer) :
    (s.moved seq as).seq = seq := rfl
@[simp] theorem State.moved_answers (s : State) (seq : Seq) (as : List Answer) :
    (s.moved seq as).answers = as := rfl

theorem State.running_congr {s t : State} (cfg : t.cfg = s.cfg)
    (resetLine : t.resetLine = s.resetLine) (running : s.running) : t.running := by
  rwa [State.running, cfg, resetLine]

theorem State.moved_moved (s : State) (seq seq' : Seq) (as as' : List Answer) :
    (s.moved seq as).moved seq' as' = s.moved seq' as' := rfl

section
variable {s : State} {c : Instr} {op : RegOp} {task : Task} {packet : List Byte} {k : Word16}
  {a : Ack} {as : List Answer}

theorem State.sendPacket_busy {pos : Pos} (busy : s.seq = .busy c pos) :
    s.sendPacket packet op task =
      { s with
        txBuf := packet
        crcAcc := crc32jam (packet.drop 6)
        seq := .busy c (.chunk (op.arm s.reqId) (.busyPoll 0) task) } := by
  rw [State.sendPacket]
  exact State.goto_busy
    ({ s with txBuf := packet, crcAcc := crc32jam (packet.drop 6) } : State) busy _

/-- A chunk's request is sent and a packet that fits is received. -/
theorem State.reaches_beforeDecode (running : s.running) (mpsHigh : s.mps.toNat ≤ 1024)
    (position : s.seq = .busy c (.chunk op .encode task))
    (request : exec op.request s = .next (s.sendPacket packet op task))
    (fits : 16 + a.payload.length ≤ s.mps.toNat)
    (answers : s.answers = exchangeAnswers s.cfg k a ++ as) :
    s.reaches (s.beforeDecode c (op.arm s.reqId) task packet k a as) := by
  obtain ⟨⟨busyClear, txConsumed, rxReady, rxIdle⟩, lenMin⟩ := State.widths running
  have short : (packetBytes k a).length < 256 ^ s.cfg.lenWidth :=
    calc (packetBytes k a).length
      _ ≤ 1024 := by rw [length_packetBytes]; omega
      _ < 256 ^ 2 := by norm_num
      _ ≤ 256 ^ s.cfg.lenWidth := Nat.pow_le_pow_right (by norm_num) lenMin
  have small : (packetBytes k a).length ≤ s.mps.toNat := by rwa [length_packetBytes]
  let sent : State := { s with txBuf := packet, crcAcc := crc32jam (packet.drop 6) }
  have begins : step s = .next (sent.inPhase c (op.arm s.reqId) (.busyPoll 0) task []
      (sendAnswers s.cfg ++ (receiveAnswers s.cfg (packetBytes k a) ++ as))) := by
    rw [step_fetch running (State.fetch_encode position), request, State.sendPacket_busy position]
    rw [exchangeAnswers, List.append_assoc] at answers
    simp [sent, State.inPhase, answers]
  have sends := State.reaches_send (s := sent) (cmd := c) (op := op.arm s.reqId) (task := task)
    (k := 0) running busyClear txConsumed []
    (receiveAnswers s.cfg (packetBytes k a) ++ as)
  have receives := State.reaches_receive (s := sent) (cmd := c) (op := op.arm s.reqId)
    (task := task) (k := 0) running rxReady rxIdle short small ([] ++ sent.sendEvents packet) as
  refine cast (congrArg s.reaches ?_)
    (State.reaches_trans (State.reaches_step begins) (State.reaches_trans sends receives))
  rw [List.nil_append, State.beforeDecode, List.append_assoc]
  rfl

/-- The exchange ends in what the acknowledgment, as an instruction, makes of the state before its
DECODE. -/
theorem State.reaches_exchange {t : State} (running : s.running) (mpsHigh : s.mps.toNat ≤ 1024)
    (position : s.seq = .busy c (.chunk op .encode task))
    (request : exec op.request s = .next (s.sendPacket packet op task))
    (fits : 16 + a.payload.length ≤ s.mps.toNat)
    (answers : s.answers = exchangeAnswers s.cfg k a ++ as)
    (accepts : exec (ackInstr k a) (s.beforeDecode c (op.arm s.reqId) task packet k a as) =
      .next t) :
    s.reaches t := by
  have received := State.reaches_beforeDecode running mpsHigh position request fits answers
  have small : a.payload.length < 2 ^ 16 := by omega
  refine State.reaches_trans received (State.reaches_step ?_)
  exact (step_fetch (s := s.beforeDecode ..) running
    (State.fetch_decode rfl (decodeReceived_packetBytes k small))).trans accepts

/-- DECODE past its checks, as the statements write the exchange. -/
theorem State.decoded_beforeDecode (reqId : Word16) (seq : Seq) :
    { (s.beforeDecode c op task packet k a as).decoded k a with reqId := reqId, seq := seq } =
      ({ s.exchanged packet k a with reqId := reqId } : State).moved seq as := by
  simp only [State.decoded, State.beforeDecode, State.exchanged, State.moved]

/-! ### One chunk (R144, R150) -/

/-- `s` after the acknowledged read of a chunk at `addr`. -/
def State.exchangedRead (s : State) (addr : Word64) (k : Chunk) (a : Ack) : State :=
  s.exchanged (buildReadMem s.reqId (chunkAddr addr k) (BitVec.ofNat 16 k.size)) cmdReadMemAck a

/-- `s` after the acknowledged write of a chunk of `data` at `addr`. -/
def State.exchangedWrite (s : State) (addr : Word64) (data : List Byte) (k : Chunk) (a : Ack) :
    State :=
  { s.exchanged (buildWriteMem s.reqId (chunkAddr addr k) (k.of data)) cmdWriteMemAck a with
    reqId := nextId s.reqId }

theorem State.ackAccepted_iff :
    s.ackAccepted k a = true ↔
      a.status = s.cfg.statusSuccess ∧ 16 + a.payload.length ≤ s.mps.toNat ∧
        s.crcAccepted k a = true := by
  simp [State.ackAccepted, and_assoc]

variable {addr : Word64} {data : List Byte} {cur : Chunk} {rest : List Chunk}

@[simp] theorem State.exchangedRead_cfg (k : Chunk) :
    (s.exchangedRead addr k a).cfg = s.cfg := by
  simp only [State.exchangedRead, State.exchanged]
@[simp] theorem State.exchangedRead_mps (k : Chunk) :
    (s.exchangedRead addr k a).mps = s.mps := by
  simp only [State.exchangedRead, State.exchanged]
@[simp] theorem State.exchangedRead_resetLine (k : Chunk) :
    (s.exchangedRead addr k a).resetLine = s.resetLine := by
  simp only [State.exchangedRead, State.exchanged]

@[simp] theorem State.exchangedWrite_cfg (k : Chunk) :
    (s.exchangedWrite addr data k a).cfg = s.cfg := by
  simp only [State.exchangedWrite, State.exchanged]
@[simp] theorem State.exchangedWrite_mps (k : Chunk) :
    (s.exchangedWrite addr data k a).mps = s.mps := by
  simp only [State.exchangedWrite, State.exchanged]
@[simp] theorem State.exchangedWrite_resetLine (k : Chunk) :
    (s.exchangedWrite addr data k a).resetLine = s.resetLine := by
  simp only [State.exchangedWrite, State.exchanged]
@[simp] theorem State.exchangedWrite_reqId (k : Chunk) :
    (s.exchangedWrite addr data k a).reqId = nextId s.reqId := by
  simp only [State.exchangedWrite, State.exchanged]

theorem exec_readMemRequest (addr : Word64) (n : Word16) (s : State) :
    exec (.readMemRequest addr n) s = execReadMemRequest addr n s := rfl

theorem exec_writeMemRequest (addr : Word64) (data : List Byte) (s : State) :
    exec (.writeMemRequest addr data) s = execWriteMemRequest addr data s := rfl

theorem exec_readMemRequest_of_encode (position : s.seq = .busy c (.chunk op .encode task))
    (addr : Word64) (n : Word16) :
    exec (.readMemRequest addr n) s =
      .next (s.sendPacket (buildReadMem s.reqId addr n) op task) := by
  rw [exec_readMemRequest, execReadMemRequest, atEncode, position]
  rfl

theorem exec_writeMemRequest_of_encode (position : s.seq = .busy c (.chunk op .encode task))
    (addr : Word64) (data : List Byte) :
    exec (.writeMemRequest addr data) s =
      .next (s.sendPacket (buildWriteMem s.reqId addr data) op task) := by
  rw [exec_writeMemRequest, execWriteMemRequest, atEncode, position]
  rfl

/-- One chunk of a read whose acknowledgment is accepted. -/
theorem State.reaches_readChunk {out : List Byte} (running : s.running)
    (mpsHigh : s.mps.toNat ≤ 1024)
    (position : s.seq = .busy c (.chunk (.read addr cur rest out) .encode task))
    (accepted : s.ackAccepted cmdReadMemAck a = true) (whole : a.payload.length = cur.size)
    (answers : s.answers = exchangeAnswers s.cfg cmdReadMemAck a ++ as) :
    s.reaches ((s.exchangedRead addr cur a).moved
      (.busy c ((RegOp.read addr cur rest out).afterChunk a.payload task)) as) := by
  obtain ⟨success, fits, crc⟩ := State.ackAccepted_iff.mp accepted
  refine State.reaches_exchange running mpsHigh position
    (exec_readMemRequest_of_encode position _ _) fits answers ?_
  refine (exec_readMemAck_of_read (s := s.beforeDecode ..) rfl crc).trans ?_
  exact congrArg _ ((if_neg (not_not.mpr success)).trans (if_neg (not_not.mpr whole)))

/-- One chunk of a write whose acknowledgment is accepted; the next one takes the next id (R145). -/
theorem State.reaches_writeChunk {id : Word16} {p : Nat} (running : s.running)
    (mpsHigh : s.mps.toNat ≤ 1024)
    (position : s.seq = .busy c (.chunk (.write addr data cur rest id p) .encode task))
    (accepted : s.ackAccepted cmdWriteMemAck a = true) (own : a.requestId = s.reqId)
    (answers : s.answers = exchangeAnswers s.cfg cmdWriteMemAck a ++ as) :
    s.reaches ((s.exchangedWrite addr data cur a).moved
      (.busy c ((RegOp.write addr data cur rest s.reqId 0).afterChunk [] task)) as) := by
  obtain ⟨success, fits, crc⟩ := State.ackAccepted_iff.mp accepted
  refine State.reaches_exchange running mpsHigh position
    (exec_writeMemRequest_of_encode position _ _) fits answers ?_
  refine (exec_writeMemAck_of_write (s := s.beforeDecode ..) rfl crc).trans ?_
  rw [State.exchangedWrite, ← State.decoded_beforeDecode]
  exact congrArg _ ((if_neg (not_not.mpr success)).trans (if_neg (not_not.mpr own)))

end

/-! ### All chunks (R143, R149) -/

/-- The position of a register read that has the chunks `cs` to come and has read `out`. -/
def readPosition (addr : Word64) (out : List Byte) (task : Task) : List Chunk → Pos
  | [] => .opDone out task
  | c :: cs => .chunk (.read addr c cs out) .encode task

/-- The position of a register write that has the chunks `cs` to come. -/
def writePosition (addr : Word64) (data : List Byte) (id : Word16) (task : Task) : List Chunk → Pos
  | [] => .opDone [] task
  | c :: cs => .chunk (.write addr data c cs id 0) .encode task

theorem readPosition_ne_start (addr : Word64) (out : List Byte) (task : Task) (cs : List Chunk) :
    readPosition addr out task cs ≠ .start := by
  cases cs <;> exact Pos.noConfusion

theorem RegOp.afterChunk_read (addr : Word64) (cur : Chunk) (cs : List Chunk)
    (out payload : List Byte) (task : Task) :
    (RegOp.read addr cur cs out).afterChunk payload task =
      readPosition addr (out ++ payload) task cs := by
  cases cs <;> rfl

theorem RegOp.afterChunk_write (addr : Word64) (data : List Byte) (cur : Chunk) (cs : List Chunk)
    (id : Word16) (task : Task) :
    (RegOp.write addr data cur cs id 0).afterChunk [] task =
      writePosition addr data id task cs := by
  cases cs <;> rfl

theorem State.startRead_busy (s : State) {c : Instr} {pos : Pos} (busy : s.seq = .busy c pos)
    (addr : Word64) (n : Nat) (task : Task) :
    s.startRead addr n task =
      { s with seq := .busy c (readPosition addr [] task (chunks n s.mrp)) } := by
  rw [State.startRead, ← s.goto_busy busy]
  cases chunks n s.mrp <;> rfl

theorem State.startWrite_busy (s : State) {c : Instr} {pos : Pos} (busy : s.seq = .busy c pos)
    (addr : Word64) (data : List Byte) (task : Task) :
    s.startWrite addr data task =
      { s with
        seq := .busy c (writePosition addr data s.reqId task (chunks data.length s.mwp)) } := by
  rw [State.startWrite, ← s.goto_busy busy]
  cases chunks data.length s.mwp <;> rfl

section
variable {s t : State} (cs : List Chunk) (acks : List Ack) (cfg : t.cfg = s.cfg)
  (mps : t.mps = s.mps)
include cfg mps

/-! Of the state, acceptance takes the parameters and `MPS` only. -/

theorem State.ackAccepted_congr (k : Word16) (a : Ack) : t.ackAccepted k a = s.ackAccepted k a := by
  simp only [State.ackAccepted, State.crcAccepted, cfg, mps]

theorem State.readsAccepted_congr : t.readsAccepted cs acks = s.readsAccepted cs acks := by
  induction cs generalizing acks with
  | nil => cases acks <;> rfl
  | cons k ks ih =>
    cases acks with
    | nil => rfl
    | cons a acks => simp only [State.readsAccepted, State.ackAccepted_congr cfg mps, ih]

theorem State.writesAccepted_congr (id : Word16) :
    t.writesAccepted cs acks id = s.writesAccepted cs acks id := by
  induction cs generalizing acks id with
  | nil => cases acks <;> rfl
  | cons k ks ih =>
    cases acks with
    | nil => rfl
    | cons a acks => simp only [State.writesAccepted, State.ackAccepted_congr cfg mps, ih]

end

section
variable (s : State) (addr : Word64) (data : List Byte) (cs : List Chunk) (acks : List Ack)

theorem State.readChunks_nil : State.readChunks addr [] acks s = s := by
  simp only [State.readChunks]

theorem State.wroteChunks_nil : State.wroteChunks addr data [] acks s = s := by
  simp only [State.wroteChunks]

theorem State.readChunks_cons (k : Chunk) (a : Ack) :
    State.readChunks addr (k :: cs) (a :: acks) s =
      State.readChunks addr cs acks (s.exchangedRead addr k a) := by
  rw [State.readChunks, State.exchangedRead, chunkAddr, cmdReadMemAck]

theorem State.wroteChunks_cons (k : Chunk) (a : Ack) :
    State.wroteChunks addr data (k :: cs) (a :: acks) s =
      State.wroteChunks addr data cs acks (s.exchangedWrite addr data k a) := by
  rw [State.wroteChunks, State.exchangedWrite, chunkAddr, Chunk.of, cmdWriteMemAck]

/-- Neither the position nor the answers at hand matter to what an exchange leaves. -/
theorem State.exchangedRead_moved (seq : Seq) (as : List Answer) (k : Chunk) (a : Ack) :
    (s.moved seq as).exchangedRead addr k a = (s.exchangedRead addr k a).moved seq as := by
  simp only [State.exchangedRead, State.moved, State.exchanged, State.sendEvents,
    State.receiveEvents]

theorem State.exchangedWrite_moved (seq : Seq) (as : List Answer) (k : Chunk) (a : Ack) :
    (s.moved seq as).exchangedWrite addr data k a =
      (s.exchangedWrite addr data k a).moved seq as := by
  simp only [State.exchangedWrite, State.moved, State.exchanged, State.sendEvents,
    State.receiveEvents]

/-- Chunk after chunk, as long as there are acknowledgments. -/
theorem State.readChunks_eq_foldl :
    State.readChunks addr cs acks s =
      (cs.zip acks).foldl (fun t x => t.exchangedRead addr x.1 x.2) s := by
  induction cs generalizing s acks with
  | nil => exact State.readChunks_nil s addr acks
  | cons k ks ih =>
    cases acks with
    | nil => simp only [State.readChunks, List.zip_nil_right, List.foldl_nil]
    | cons a acks => rw [State.readChunks_cons, ih, List.zip_cons_cons, List.foldl_cons]

theorem State.wroteChunks_eq_foldl :
    State.wroteChunks addr data cs acks s =
      (cs.zip acks).foldl (fun t x => t.exchangedWrite addr data x.1 x.2) s := by
  induction cs generalizing s acks with
  | nil => exact State.wroteChunks_nil s addr data acks
  | cons k ks ih =>
    cases acks with
    | nil => simp only [State.wroteChunks, List.zip_nil_right, List.foldl_nil]
    | cons a acks => rw [State.wroteChunks_cons, ih, List.zip_cons_cons, List.foldl_cons]

theorem State.readChunks_moved (seq : Seq) (as : List Answer) :
    State.readChunks addr cs acks (s.moved seq as) =
      (State.readChunks addr cs acks s).moved seq as := by
  rw [State.readChunks_eq_foldl, State.readChunks_eq_foldl]
  exact List.foldl_hom (State.moved · seq as) fun t x => t.exchangedRead_moved addr seq as x.1 x.2

theorem State.wroteChunks_moved (seq : Seq) (as : List Answer) :
    State.wroteChunks addr data cs acks (s.moved seq as) =
      (State.wroteChunks addr data cs acks s).moved seq as := by
  rw [State.wroteChunks_eq_foldl, State.wroteChunks_eq_foldl]
  exact List.foldl_hom (State.moved · seq as)
    fun t x => t.exchangedWrite_moved addr data seq as x.1 x.2

/-- Chunks leave the parameters and the reset line. -/
theorem State.readChunks_inputs :
    (State.readChunks addr cs acks s).cfg = s.cfg ∧
      (State.readChunks addr cs acks s).resetLine = s.resetLine := by
  rw [State.readChunks_eq_foldl]
  exact List.foldlRecOn (motive := fun t : State => t.cfg = s.cfg ∧ t.resetLine = s.resetLine) _ _
    ⟨rfl, rfl⟩ fun t kept x _ => by simpa using kept

theorem State.wroteChunks_inputs :
    (State.wroteChunks addr data cs acks s).cfg = s.cfg ∧
      (State.wroteChunks addr data cs acks s).resetLine = s.resetLine := by
  rw [State.wroteChunks_eq_foldl]
  exact List.foldlRecOn (motive := fun t : State => t.cfg = s.cfg ∧ t.resetLine = s.resetLine) _ _
    ⟨rfl, rfl⟩ fun t kept x _ => by simpa using kept

theorem State.did_moved (seq : Seq) (as : List Answer) (x : Action) :
    (s.moved seq as).did x = (s.did x).moved seq as := by
  cases x with
  | write addr data acks => exact State.wroteChunks_moved s addr data _ acks seq as
  | read addr n acks => exact State.readChunks_moved s addr _ acks seq as
  | progress written total => rfl

theorem State.actionAccepted_moved (seq : Seq) (as : List Answer) (id : Word16) (x : Action) :
    (s.moved seq as).actionAccepted id x = s.actionAccepted id x := by
  cases x with
  | write addr data acks =>
    exact State.writesAccepted_congr (s := s) (t := s.moved seq as) _ acks rfl rfl id
  | read addr n acks =>
    exact State.readsAccepted_congr (s := s) (t := s.moved seq as) _ acks rfl rfl
  | progress written total => rfl

theorem State.did_inputs (x : Action) :
    (s.did x).cfg = s.cfg ∧ (s.did x).resetLine = s.resetLine := by
  cases x with
  | write addr data acks => exact State.wroteChunks_inputs s addr data _ acks
  | read addr n acks => exact State.readChunks_inputs s addr _ acks
  | progress written total => exact ⟨rfl, rfl⟩

theorem State.running_did {s : State} (running : s.running) (x : Action) : (s.did x).running := by
  obtain ⟨cfg, resetLine⟩ := s.did_inputs x
  exact State.running_congr cfg resetLine running

end

section
variable {s : State} {c : Instr} {task : Task} {addr : Word64} {rest : List Answer}

/-- All chunks of a read: its bytes are the payloads, in order (R149). -/
theorem State.reaches_readChunks {out : List Byte} {cs : List Chunk} {acks : List Ack}
    (running : s.running) (mpsHigh : s.mps.toNat ≤ 1024)
    (position : s.seq = .busy c (readPosition addr out task cs))
    (accepted : s.readsAccepted cs acks = true)
    (answers : s.answers = acks.flatMap (exchangeAnswers s.cfg cmdReadMemAck) ++ rest) :
    s.reaches ((State.readChunks addr cs acks s).moved
      (.busy c (.opDone (out ++ payloads acks) task)) rest) := by
  induction cs generalizing s acks out with
  | nil =>
    cases acks with
    | nil =>
      rw [payloads, List.flatMap_nil, List.append_nil, State.readChunks_nil]
      rw [List.flatMap_nil, List.nil_append] at answers
      rw [← answers, ← readPosition, ← position]
      exact State.reaches_refl
    | cons a acks => cases accepted
  | cons k ks ih =>
    cases acks with
    | nil => cases accepted
    | cons a acks =>
      simp only [State.readsAccepted, Bool.and_eq_true, beq_iff_eq] at accepted
      obtain ⟨⟨ack, whole⟩, others⟩ := accepted
      rw [List.flatMap_cons, List.append_assoc] at answers
      have first := State.reaches_readChunk running mpsHigh position ack whole answers
      rw [RegOp.afterChunk_read] at first
      generalize next : (s.exchangedRead addr k a).moved _ _ = t at first
      have cfg : t.cfg = s.cfg := by simp [← next]
      have mps : t.mps = s.mps := by simp [← next]
      have resetLine : t.resetLine = s.resetLine := by simp [← next]
      have remaining := ih (s := t) (out := out ++ a.payload) (acks := acks)
        (State.running_congr cfg resetLine running) (by rwa [mps]) (by rw [← next, State.moved_seq])
        (by rwa [State.readsAccepted_congr ks acks cfg mps])
        (by rw [cfg, ← next, State.moved_answers])
      rw [← next, State.readChunks_moved, State.moved_moved, List.append_assoc] at remaining
      rw [State.readChunks_cons]
      exact State.reaches_trans (next ▸ first) remaining

/-- All chunks of a write, each under its own id (R143). -/
theorem State.reaches_writeChunks {data : List Byte} {id : Word16} {cs : List Chunk}
    {acks : List Ack} (running : s.running) (mpsHigh : s.mps.toNat ≤ 1024)
    (position : s.seq = .busy c (writePosition addr data id task cs))
    (accepted : s.writesAccepted cs acks s.reqId = true)
    (answers : s.answers = acks.flatMap (exchangeAnswers s.cfg cmdWriteMemAck) ++ rest) :
    s.reaches ((State.wroteChunks addr data cs acks s).moved
      (.busy c (.opDone [] task)) rest) := by
  induction cs generalizing s acks id with
  | nil =>
    cases acks with
    | nil =>
      rw [List.flatMap_nil, List.nil_append] at answers
      rw [State.wroteChunks_nil, ← answers, ← writePosition, ← position]
      exact State.reaches_refl
    | cons a acks => cases accepted
  | cons k ks ih =>
    cases acks with
    | nil => cases accepted
    | cons a acks =>
      simp only [State.writesAccepted, Bool.and_eq_true, beq_iff_eq] at accepted
      obtain ⟨⟨ack, own⟩, others⟩ := accepted
      rw [List.flatMap_cons, List.append_assoc] at answers
      have first := State.reaches_writeChunk running mpsHigh position ack own answers
      rw [RegOp.afterChunk_write] at first
      generalize next : (s.exchangedWrite addr data k a).moved _ _ = t at first
      have cfg : t.cfg = s.cfg := by simp [← next]
      have mps : t.mps = s.mps := by simp [← next]
      have reqId : t.reqId = nextId s.reqId := by simp [← next]
      have resetLine : t.resetLine = s.resetLine := by simp [← next]
      have remaining := ih (s := t) (id := s.reqId) (acks := acks)
        (State.running_congr cfg resetLine running) (by rwa [mps]) (by rw [← next, State.moved_seq])
        (by rwa [State.writesAccepted_congr ks acks cfg mps, reqId])
        (by rw [cfg, ← next, State.moved_answers])
      rw [← next, State.wroteChunks_moved, State.moved_moved] at remaining
      rw [State.wroteChunks_cons]
      exact State.reaches_trans (next ▸ first) remaining

/-! ### A register operation from its start to its end -/

variable {pos : Pos} {acks : List Ack}

theorem State.reaches_startRead {n : Nat} (running : s.running) (mpsHigh : s.mps.toNat ≤ 1024)
    (busy : s.seq = .busy c pos) (accepted : s.actionAccepted s.reqId (.read addr n acks) = true)
    (answers : s.answers = (Action.read addr n acks).answers s.cfg ++ rest) :
    (s.startRead addr n task).reaches
      ((s.did (.read addr n acks)).moved (.busy c (.opDone (payloads acks) task)) rest) := by
  let t := s.moved (.busy c (readPosition addr [] task (chunks n s.mrp))) s.answers
  have begun : s.startRead addr n task = t := s.startRead_busy busy addr n task
  have ends := State.reaches_readChunks (s := t) running mpsHigh rfl
    ((State.readsAccepted_congr (s := s) (t := t) _ acks rfl rfl).trans accepted) answers
  rw [State.readChunks_moved, State.moved_moved, List.nil_append] at ends
  rw [begun]
  exact ends

theorem State.reaches_startWrite {data : List Byte} (running : s.running)
    (mpsHigh : s.mps.toNat ≤ 1024) (busy : s.seq = .busy c pos)
    (accepted : s.actionAccepted s.reqId (.write addr data acks) = true)
    (answers : s.answers = (Action.write addr data acks).answers s.cfg ++ rest) :
    (s.startWrite addr data task).reaches
      ((s.did (.write addr data acks)).moved (.busy c (.opDone [] task)) rest) := by
  let t := s.moved (.busy c (writePosition addr data s.reqId task (chunks data.length s.mwp)))
    s.answers
  have begun : s.startWrite addr data task = t := s.startWrite_busy busy addr data task
  have ends := State.reaches_writeChunks (s := t) running mpsHigh rfl
    ((State.writesAccepted_congr (s := s) (t := t) _ acks rfl rfl _).trans accepted) answers
  rw [State.wroteChunks_moved, State.moved_moved] at ends
  rw [begun]
  exact ends

end

end Sys2Proof.Machine
end

section
/-! PROOFS. EXEC: the step before an OperationExecute value and the register write it begins
(44_file_store.md R160); and the end of a command with one register operation. -/

namespace Sys2Proof.Machine

/-! ### EXEC of an OperationExecute value -/

section
variable (op mode : Word16) (sel : Word32)

/-- The three fields stand in an OperationExecute value where the decoder looks for them (R82). -/
theorem extractLsb'_packOperation :
    (packOperation op mode sel).extractLsb' 0 16 = op ∧
      (packOperation op mode sel).extractLsb' opModeShift 16 = mode ∧
      (packOperation op mode sel).extractLsb' opSelShift 32 = sel := by
  have value : (packOperation op mode sel).toNat =
      op.toNat + mode.toNat * 2 ^ 16 + sel.toNat * 2 ^ 32 := toNat_packOperation op mode sel
  have := op.isLt
  have := mode.isLt
  have := sel.isLt
  refine ⟨BitVec.eq_of_toNat_eq ?_, BitVec.eq_of_toNat_eq ?_, BitVec.eq_of_toNat_eq ?_⟩ <;>
    rw [BitVec.extractLsb'_toNat, Nat.shiftRight_eq_div_pow, value]
  · omega
  · rw [opModeShift]; omega
  · rw [opSelShift]; omega

theorem exec_operation (s : State) :
    exec (.opOpen mode sel) s = atOperation s.cfg.opOpen mode sel s ∧
      exec (.opClose mode sel) s = atOperation s.cfg.opClose mode sel s ∧
      exec (.opRead mode sel) s = atOperation s.cfg.opRead mode sel s ∧
      exec (.opWrite mode sel) s = atOperation s.cfg.opWrite mode sel s ∧
      exec (.opDelete mode sel) s = atOperation s.cfg.opDelete mode sel s :=
  ⟨rfl, rfl, rfl, rfl, rfl⟩

variable {op} {s : State}

/-- A value with a device code is an instruction that writes just this value. -/
theorem decodeOperation_packOperation
    (device : op ∈ [s.cfg.opOpen, s.cfg.opClose, s.cfg.opRead, s.cfg.opWrite, s.cfg.opDelete]) :
    ∃ i, decodeOperation s.cfg (packOperation op mode sel) = .ok i ∧
      exec i s = atOperation op mode sel s := by
  obtain ⟨opField, modeField, selField⟩ := extractLsb'_packOperation op mode sel
  obtain ⟨execOpen, execClose, execRead, execWrite, execDelete⟩ := exec_operation mode sel s
  simp only [decodeOperation, opField, modeField, selField]
  split
  case isTrue code => exact ⟨_, rfl, code ▸ execOpen⟩
  split
  case isTrue code => exact ⟨_, rfl, code ▸ execClose⟩
  split
  case isTrue code => exact ⟨_, rfl, code ▸ execRead⟩
  split
  case isTrue code => exact ⟨_, rfl, code ▸ execWrite⟩
  split
  case isTrue code => exact ⟨_, rfl, code ▸ execDelete⟩
  case isFalse => simp_all

variable {mode sel} {c : Instr} {task : Task} {acks : List Ack} {rest : List Answer}

theorem step_operation (running : s.running)
    (position : s.seq = .busy c (.operation (packOperation op mode sel) task))
    (device : op ∈ [s.cfg.opOpen, s.cfg.opClose, s.cfg.opRead, s.cfg.opWrite, s.cfg.opDelete]) :
    step s = .next (s.writeOperation (packOperation op mode sel) task) := by
  obtain ⟨i, decodes, runs⟩ := decodeOperation_packOperation mode sel device
  have fetched : s.fetch = some (i, s) := by simp only [State.fetch, position, decodes]
  rw [step_fetch running fetched, runs, atOperation, position]

/-- EXEC writes the value, and the command goes on after it. -/
theorem State.reaches_operation (running : s.running) (mpsHigh : s.mps.toNat ≤ 1024)
    (position : s.seq = .busy c (.operation (packOperation op mode sel) task))
    (device : op ∈ [s.cfg.opOpen, s.cfg.opClose, s.cfg.opRead, s.cfg.opWrite, s.cfg.opDelete])
    (accepted : s.actionAccepted s.reqId (execAction s.cfg op mode sel acks) = true)
    (answers : s.answers = (execAction s.cfg op mode sel acks).answers s.cfg ++ rest) :
    s.reaches ((s.did (execAction s.cfg op mode sel acks)).moved
      (.busy c (.opDone [] task)) rest) := by
  refine State.reaches_trans (State.reaches_step (step_operation running position device)) ?_
  rw [State.writeOperation, toNat_packOperation]
  exact State.reaches_startWrite running mpsHigh position accepted answers

end

/-! ### The end of a command with one register operation -/

section
variable {s : State} {x : Action} {rest : List Answer}

theorem State.plays_singleton :
    s.plays [x] rest ↔
      s.actionAccepted s.reqId x = true ∧ s.answers = x.answers s.cfg ++ rest := by
  simp [State.plays, State.allAccepted, answersOf]

/-- The response does not depend on the position the command ends at. -/
theorem State.ended_moved (seq : Seq) (kind sub handle : Byte) (value : Word32)
    (data : List Byte) :
    (s.moved seq rest).ended kind sub handle value data =
      ({ s with answers := rest } : State).ended kind sub handle value data := rfl

/-- The register operation is over and the pseudocode after it ends the command. -/
theorem State.reaches_ended {c : Instr} {bytes : List Byte} {task : Task} {handle : Byte}
    {value : Word32} {data : List Byte} (running : s.running)
    (responds : ∀ t : State, t.cfg = s.cfg →
      t.continueTask bytes task = t.respondOk handle value data) :
    ((s.did x).moved (.busy c (.opDone bytes task)) rest).reaches
      ((s.played [x] rest).ended 0 0 handle value data) := by
  obtain ⟨cfg, -⟩ := s.did_inputs x
  let t := (s.did x).moved (.busy c (.opDone bytes task)) rest
  have running_t : t.running := State.running_did running x
  refine State.reaches_step (s := t) ((step_opDone running_t rfl).trans ?_)
  rw [responds t cfg, State.respondOk_eq_ended, State.ended_moved]
  rfl

end

end Sys2Proof.Machine
end

section
/-! PROOFS. Handles: which entry a handle number stands for, CHECK_HANDLE and the first line of the
three commands that begin with it (O31), and HANDLE_DUP (O40). -/

namespace Sys2Proof.Machine

variable {s : State} {h : Byte} {e : Handle}

/-! ### The entry of a handle number (R162, R169) -/

theorem State.liveHandle_eq_some_iff :
    s.liveHandle h = some e ↔
      h.toNat < s.cfg.numHandles ∧ s.handles[h.toNat]? = some e ∧ e.valid = true := by
  unfold State.liveHandle
  split
  case isFalse outOfRange => simp [outOfRange]
  case isTrue inRange =>
    cases s.handles[h.toNat]? with
    | none => simp
    | some f =>
      simp only [inRange, true_and, Option.ite_none_right_eq_some, Option.some.injEq]
      exact ⟨fun ⟨valid, same⟩ => ⟨same, same ▸ valid⟩, fun ⟨same, valid⟩ => ⟨same ▸ valid, same⟩⟩

theorem State.liveHandle_eq_none
    (dead : ∀ e, ¬ (h.toNat < s.cfg.numHandles ∧ s.handles[h.toNat]? = some e ∧ e.valid = true)) :
    s.liveHandle h = none :=
  Option.eq_none_iff_forall_ne_some.mpr fun e found => dead e (State.liveHandle_eq_some_iff.mp found)

theorem State.selOf_eq (found : s.handles[h.toNat]? = some e) : s.selOf h = e.sel := by
  rw [State.selOf, found]

/-! ### CHECK_HANDLE (R162) -/

section
variable {need : Option (BitVec 2)}

theorem State.checkHandle_of_linkDown (down : s.linkUp = false) :
    s.checkHandle h need = some .linkDown := by
  simp [State.checkHandle, down]

theorem State.checkHandle_of_not_live (up : s.linkUp = true) (dead : s.liveHandle h = none) :
    s.checkHandle h need = some .badHandle := by
  simp [State.checkHandle, up, dead]

theorem State.checkHandle_of_stale (up : s.linkUp = true) (live : s.liveHandle h = some e)
    (stale : e.stale = true) : s.checkHandle h need = some .staleHandle := by
  simp [State.checkHandle, up, live, stale]

theorem State.checkHandle_of_wrongMode {m : BitVec 2} (up : s.linkUp = true)
    (live : s.liveHandle h = some e) (fresh : e.stale = false) (wrong : e.mode ≠ m) :
    s.checkHandle h (some m) = some .wrongMode := by
  simp [State.checkHandle, up, live, fresh, wrong]

theorem State.checkHandle_of_usable (up : s.linkUp = true) (live : s.liveHandle h = some e)
    (fresh : e.stale = false) (mode : need = none ∨ need = some e.mode) :
    s.checkHandle h need = none := by
  rcases mode with rfl | rfl <;> simp [State.checkHandle, up, live, fresh]

end

/-! ### The first line of a command with checks -/

/-- A check that fails ends the command with its error, of any kind but a Timeout. -/
theorem State.unlessErr_some {cmd : Instr} (accepted : s.seq = .busy cmd .start) {err : Err}
    (notTimeout : isTimeout err = false) (body : State → State) :
    s.unlessErr (some err) body = s.failed (errCode err).1 (errCode err).2 :=
  s.raiseErr_eq_failed_of_start accepted err notTimeout

theorem State.unlessErr_none (body : State → State) : s.unlessErr none body = body s := rfl

theorem exec_fileLength (h : Byte) (s : State) :
    exec (.fileLength h) s = execFileLength h s := rfl

theorem exec_fileWrite (h : Byte) (data : List Byte) (s : State) :
    exec (.fileWrite h data) s = execFileWrite h data s := rfl

theorem exec_fileRead (h : Byte) (maxLen : Word32) (s : State) :
    exec (.fileRead h maxLen) s = execFileRead h maxLen s := rfl

theorem exec_fileLength_of_start (accepted : s.seq = .busy (.fileLength h) .start) :
    exec (.fileLength h) s =
      .next (s.unlessErr (s.checkHandle h none) fun s => s.startSize h .length) := by
  rw [exec_fileLength, execFileLength, runCommand_start _ _ _ accepted]

theorem exec_fileWrite_of_start {data : List Byte}
    (accepted : s.seq = .busy (.fileWrite h data) .start) :
    exec (.fileWrite h data) s =
      .next (s.unlessErr (s.checkHandle h (some modeWrite))
        fun s => s.startSize h (.writeSize h data)) := by
  rw [exec_fileWrite, execFileWrite, runCommand_start _ _ _ accepted]

theorem exec_fileRead_of_start {maxLen : Word32}
    (accepted : s.seq = .busy (.fileRead h maxLen) .start) :
    exec (.fileRead h maxLen) s =
      .next (s.unlessErr (s.checkHandle h (some modeRead))
        fun s => s.startSize h (.readSize h maxLen.toNat)) := by
  rw [exec_fileRead, execFileRead, runCommand_start _ _ _ accepted]

/-- The three commands on an open file begin alike: CHECK_HANDLE for the mode each needs, then the
size of the handle's selector. -/
theorem exec_of_handleCommand {i : Instr} {need : Option (BitVec 2)}
    (accepted : s.seq = .busy i .start)
    (command : (i = .fileLength h ∧ need = none) ∨
      (∃ data, i = .fileWrite h data ∧ need = some 2) ∨ ∃ n, i = .fileRead h n ∧ need = some 1) :
    ∃ task, exec i s =
      .next (s.unlessErr (s.checkHandle h need) fun s => s.startSize h task) := by
  obtain ⟨rfl, rfl⟩ | ⟨data, rfl, rfl⟩ | ⟨maxLen, rfl, rfl⟩ := command
  · exact ⟨_, exec_fileLength_of_start accepted⟩
  · exact ⟨_, exec_fileWrite_of_start accepted⟩
  · exact ⟨_, exec_fileRead_of_start accepted⟩

/-- A command that reads a size has left its first line. -/
theorem State.startSize_position {cmd : Instr} {pos : Pos} (busy : s.seq = .busy cmd pos)
    (task : Task) :
    ∃ pos', pos' ≠ .start ∧ s.startSize h task = { s with seq := .busy cmd pos' } := by
  rw [State.startSize, s.startRead_busy busy]
  exact ⟨_, readPosition_ne_start _ _ _ _, rfl⟩

/-- Settles O31: the premises of each clause decide CHECK_HANDLE, with the error of that clause or
with none. -/
theorem handleChecks : Obligations.HandleChecks := by
  intro s h i need accepted command entry
  obtain ⟨task, run⟩ := exec_of_handleCommand accepted command
  rw [run]
  refine ⟨fun down => ?linkDown, fun up dead => ?badHandle, fun e up live stale => ?staleHandle,
    fun e m up live fresh needs wrong => ?wrongMode, fun e up live fresh mode => ?passed⟩
  case linkDown =>
    rw [State.checkHandle_of_linkDown down, State.unlessErr_some accepted rfl]
    rfl
  case badHandle =>
    rw [State.checkHandle_of_not_live up (State.liveHandle_eq_none dead),
      State.unlessErr_some accepted rfl]
    rfl
  case staleHandle =>
    rw [State.checkHandle_of_stale up (State.liveHandle_eq_some_iff.mpr live) stale,
      State.unlessErr_some accepted rfl]
    rfl
  case wrongMode =>
    rw [needs, State.checkHandle_of_wrongMode up (State.liveHandle_eq_some_iff.mpr live) fresh wrong,
      State.unlessErr_some accepted rfl]
    rfl
  case passed =>
    rw [State.checkHandle_of_usable up (State.liveHandle_eq_some_iff.mpr live) fresh mode,
      State.unlessErr_none]
    obtain ⟨pos, moved, position⟩ := State.startSize_position accepted task
    exact ⟨pos, moved, congrArg _ position⟩

/-! ### HANDLE_DUP (R169) -/

theorem exec_handleDup (h : Byte) (s : State) :
    exec (.handleDup h) s = execHandleDup h s := rfl

theorem exec_handleDup_of_start (accepted : s.seq = .busy (.handleDup h) .start) :
    exec (.handleDup h) s = .next (s.handleDup h) := by
  rw [exec_handleDup, execHandleDup, runCommand_start _ _ _ accepted]

/-- The count of a live handle, stale or not: at its maximum it stays. -/
theorem State.handleDup_of_live (live : s.liveHandle h = some e) :
    s.handleDup h =
      if e.refcnt = 65535 then s.raiseErr .refcountOverflow
      else (s.setHandle h.toNat { e with refcnt := e.refcnt + 1 }).ended 0 0 h 0 [] := by
  rw [State.handleDup, live]
  rfl

/-- Settles O40: a number without a live entry is refused; with one, the count decides. -/
theorem handleDupCounts : Obligations.HandleDupCounts := by
  intro s h accepted entry
  rw [exec_handleDup_of_start accepted]
  refine ⟨fun dead => ?badHandle, fun e live full => ?overflow, fun e live room => ?counted⟩
  case badHandle =>
    rw [State.handleDup, State.liveHandle_eq_none dead]
    exact congrArg _ (s.raiseErr_eq_failed_of_start accepted .badHandle rfl)
  case overflow =>
    rw [State.handleDup_of_live (State.liveHandle_eq_some_iff.mpr live), if_pos full,
      s.raiseErr_eq_failed_of_start accepted .refcountOverflow rfl]
    rfl
  case counted =>
    rw [State.handleDup_of_live (State.liveHandle_eq_some_iff.mpr live), if_neg room]
    rfl

end Sys2Proof.Machine
end

section
/-! PROOFS. The two commands of the file store with one register operation each: FILE_LENGTH (O35)
and FILE_REMOVE with its checks (O34). -/

namespace Sys2Proof.Machine

/-! ### FILE_LENGTH (R166) -/

/-- The size register is read at the address of the handle's selector (R51). -/
theorem State.startSize_eq {s : State} {h : Byte} {e : Handle}
    (found : s.handles[h.toNat]? = some e) (task : Task) :
    s.startSize h task = s.startRead (0xD0005300 + 4 * e.sel.setWidth 64) 4 task := by
  rw [State.startSize, State.selOf_eq found]
  rfl

/-- Settles O35: CHECK_HANDLE passes in either mode, the size is read, and its value is answered. -/
theorem fileLengthRuns : Obligations.FileLengthRuns := by
  intro s h e acks rest ready inRange found live fresh xs plays
  obtain ⟨running, accepted, up, -, mpsHigh⟩ := ready
  obtain ⟨acksAccepted, answers⟩ := State.plays_singleton.mp plays
  have usable : s.checkHandle h none = none :=
    State.checkHandle_of_usable up (State.liveHandle_eq_some_iff.mpr ⟨inRange, found, live⟩) fresh
      (.inl rfl)
  rw [exec_fileLength_of_start accepted, usable, State.unlessErr_none, State.startSize_eq found]
  refine ⟨_, rfl, ?_⟩
  have reads := State.reaches_startRead (task := .length) running mpsHigh accepted acksAccepted
    answers
  exact State.reaches_trans reads
    (State.reaches_ended running fun t cfg => by rw [State.continueTask, cfg])

/-! ### FILE_REMOVE (R165) -/

section
variable {s : State} {sel : Byte}

theorem State.knowsSelector_iff : s.knowsSelector sel = true ↔ sel ∈ s.cfg.knownSelectors :=
  List.contains_iff_mem

theorem State.checkRemove_of_linkDown (down : s.linkUp = false) :
    s.checkRemove sel = some .linkDown := by
  simp [State.checkRemove, down]

theorem State.checkRemove_of_unknown (up : s.linkUp = true) (unknown : sel ∉ s.cfg.knownSelectors) :
    s.checkRemove sel = some .unknownSelector := by
  simp [State.checkRemove, up, State.knowsSelector_iff, unknown]

theorem State.checkRemove_of_known (up : s.linkUp = true) (known : sel ∈ s.cfg.knownSelectors) :
    s.checkRemove sel = none := by
  simp [State.checkRemove, up, State.knowsSelector_iff, known]

theorem exec_fileRemove (sel : Byte) (s : State) :
    exec (.fileRemove sel) s = execFileRemove sel s := rfl

theorem exec_fileRemove_of_start (accepted : s.seq = .busy (.fileRemove sel) .start) :
    exec (.fileRemove sel) s =
      .next (s.unlessErr (s.checkRemove sel)
        fun s => s.startOperation s.cfg.opDelete 0 (sel.setWidth 32) .remove) := by
  rw [exec_fileRemove, execFileRemove, runCommand_start _ _ _ accepted]

theorem State.startOperation_busy {c : Instr} {pos : Pos} (busy : s.seq = .busy c pos)
    (op mode : Word16) (sel : Word32) (task : Task) :
    s.startOperation op mode sel task =
      s.moved (.busy c (.operation (packOperation op mode sel) task)) s.answers :=
  s.goto_busy busy _

end

/-- Settles O34: the two checks, then the Delete, which writes one value and touches no handle. -/
theorem fileRemoveRuns : Obligations.FileRemoveRuns := by
  intro s sel acks rest xs accepted
  rw [exec_fileRemove_of_start accepted]
  refine ⟨fun down => ?linkDown, fun up unknown => ?unknownSelector, fun ready known plays => ?runs⟩
  case linkDown =>
    rw [State.checkRemove_of_linkDown down, State.unlessErr_some accepted rfl]
    rfl
  case unknownSelector =>
    rw [State.checkRemove_of_unknown up unknown, State.unlessErr_some accepted rfl]
    rfl
  case runs =>
    obtain ⟨running, -, up, -, mpsHigh⟩ := ready
    obtain ⟨acksAccepted, answers⟩ := State.plays_singleton.mp plays
    rw [State.checkRemove_of_known up known, State.unlessErr_none,
      State.startOperation_busy accepted]
    refine ⟨_, rfl, ?_⟩
    have deletes := State.reaches_operation
      (s := s.moved (.busy (.fileRemove sel) (.operation _ .remove)) s.answers) running mpsHigh rfl
      (by simp) ((s.actionAccepted_moved ..).trans acksAccepted) answers
    rw [State.did_moved, State.moved_moved] at deletes
    exact State.reaches_trans deletes (State.reaches_ended running fun _ _ => rfl)

end Sys2Proof.Machine
end

section
/-! PROOFS. Reset (O45): what it leaves and that the block then waits. The time between it and the first
LINK_INIT (O44): the commands that need the link are refused as LINK_DOWN, those that name a handle as
BAD_HANDLE, and LINK_INIT and CRC_COMPUTE answer. -/

namespace Sys2Proof.Machine

/-! ### Reset (R210) -/

section
variable {s : State}

theorem step_of_resetLine (legal : configOk s.cfg = true) (asserted : s.resetLine = true) :
    step s = .next s.applyReset := by
  simp [step, legal, asserted]

theorem State.length_handles_applyReset : s.applyReset.handles.length = s.cfg.numHandles :=
  List.length_replicate

/-- Every entry is the entry of a fresh table (R37). -/
theorem State.valid_of_mem_handles_applyReset {e : Handle} (he : e ∈ s.applyReset.handles) :
    e.valid = false := by
  have fresh : e = Handle.reset := List.eq_of_mem_replicate he
  rw [fresh, Handle.reset]

/-- Legal parameters stay legal, and the reset input is spent. -/
theorem State.running_applyReset (legal : configOk s.cfg = true) : s.applyReset.running :=
  ⟨legal, rfl⟩

/-- An IDLE block waits where the host stream holds no complete frame (R91). -/
theorem step_of_idle {err : DecodeError} (running : s.running) (idle : s.seq = .idle)
    (noFrame : decodeHost s.hostIn = .error err) : step s = .next s := by
  obtain ⟨legal, released⟩ := running
  have noInstr : s.fetch = none := by simp [State.fetch, idle, noFrame]
  simp [step, legal, released, noInstr, idle]

end

theorem decodeHost_nil : decodeHost [] = .error .incomplete := rfl

/-- Settles O45: the step applies the reset, whose fields R37 gives, and an IDLE block without host
bytes stays as it is. -/
theorem resetTakesEffect : Obligations.ResetTakesEffect := by
  intro s legal asserted
  have waits : step { s.applyReset with hostIn := [] } = .next { s.applyReset with hostIn := [] } :=
    step_of_idle (State.running_applyReset legal) rfl decodeHost_nil
  exact ⟨s.applyReset, step_of_resetLine legal asserted, rfl, rfl, State.length_handles_applyReset,
    fun _ => State.valid_of_mem_handles_applyReset, rfl, rfl, rfl, waits⟩

/-! ### The first line of WRITE_REG, READ_REG, FILE_OPEN and HANDLE_DROP -/

section
variable {s : State}

theorem exec_writeReg (addr : Word64) (data : List Byte) (s : State) :
    exec (.writeReg addr data) s = execWriteReg addr data s := rfl

theorem exec_readReg (addr : Word64) (len : Word32) (s : State) :
    exec (.readReg addr len) s = execReadReg addr len s := rfl

theorem exec_fileOpen (sel mode : Byte) (s : State) :
    exec (.fileOpen sel mode) s = execFileOpen sel mode s := rfl

theorem exec_handleDrop (h : Byte) (s : State) :
    exec (.handleDrop h) s = execHandleDrop h s := rfl

/-- The first line of WRITE_REG (R146). -/
theorem exec_writeReg_of_start {addr : Word64} {data : List Byte}
    (accepted : s.seq = .busy (.writeReg addr data) .start) :
    exec (.writeReg addr data) s = .next
      (if s.linkUp then s.startWrite addr data (.writeReg data.length)
      else s.raiseErr .linkDown) := by
  rw [exec_writeReg, execWriteReg, runCommand_start _ _ _ accepted]

/-- The first line of READ_REG (R151). -/
theorem exec_readReg_of_start {addr : Word64} {len : Word32}
    (accepted : s.seq = .busy (.readReg addr len) .start) :
    exec (.readReg addr len) s = .next
      (if s.linkUp then s.startRead addr len.toNat (.readReg len.toNat)
      else s.raiseErr .linkDown) := by
  rw [exec_readReg, execReadReg, runCommand_start _ _ _ accepted]

/-- The first line of FILE_OPEN (R164). -/
theorem exec_fileOpen_of_start {sel mode : Byte}
    (accepted : s.seq = .busy (.fileOpen sel mode) .start) :
    exec (.fileOpen sel mode) s =
      .next (s.unlessErr (s.checkOpen sel mode)
        fun s => s.startRead regFileStatus sizeFileStatus (.openFirstStatus sel mode)) := by
  rw [exec_fileOpen, execFileOpen, runCommand_start _ _ _ accepted]

theorem exec_handleDrop_of_start {h : Byte} (accepted : s.seq = .busy (.handleDrop h) .start) :
    exec (.handleDrop h) s = .next (s.handleDrop h) := by
  rw [exec_handleDrop, execHandleDrop, runCommand_start _ _ _ accepted]

theorem State.checkOpen_of_linkDown {sel mode : Byte} (down : s.linkUp = false) :
    s.checkOpen sel mode = some .linkDown := by
  simp [State.checkOpen, down]

/-! ### Commands that need the link (R21, R211) -/

/-- The seven commands that raise LINK_DOWN with the link down. -/
inductive Instr.NeedsLink : Instr → Prop
  | writeReg (addr : Word64) (data : List Byte) : NeedsLink (.writeReg addr data)
  | readReg (addr : Word64) (len : Word32) : NeedsLink (.readReg addr len)
  | fileOpen (sel mode : Byte) : NeedsLink (.fileOpen sel mode)
  | fileRemove (sel : Byte) : NeedsLink (.fileRemove sel)
  | fileLength (h : Byte) : NeedsLink (.fileLength h)
  | fileWrite (h : Byte) (data : List Byte) : NeedsLink (.fileWrite h data)
  | fileRead (h : Byte) (maxLen : Word32) : NeedsLink (.fileRead h maxLen)

/-- The link is the first check of each of them. -/
theorem exec_of_needsLink {i : Instr} (needs : Instr.NeedsLink i)
    (accepted : s.seq = .busy i .start) (down : s.linkUp = false) :
    exec i s = .next (s.failed 3 10) := by
  have notUp : ¬ s.linkUp = true := Bool.eq_false_iff.mp down
  have refused : s.raiseErr .linkDown = s.failed 3 10 :=
    s.raiseErr_eq_failed_of_start accepted .linkDown rfl
  have unchecked (body : State → State) : s.unlessErr (some .linkDown) body = s.failed 3 10 :=
    refused
  cases needs with
  | writeReg addr data => rw [exec_writeReg_of_start accepted, if_neg notUp, refused]
  | readReg addr len => rw [exec_readReg_of_start accepted, if_neg notUp, refused]
  | fileOpen sel mode =>
    rw [exec_fileOpen_of_start accepted, State.checkOpen_of_linkDown down, unchecked]
  | fileRemove sel =>
    rw [exec_fileRemove_of_start accepted, State.checkRemove_of_linkDown down, unchecked]
  | fileLength h =>
    rw [exec_fileLength_of_start accepted, State.checkHandle_of_linkDown down, unchecked]
  | fileWrite h data =>
    rw [exec_fileWrite_of_start accepted, State.checkHandle_of_linkDown down, unchecked]
  | fileRead h maxLen =>
    rw [exec_fileRead_of_start accepted, State.checkHandle_of_linkDown down, unchecked]

/-! ### Commands on a table without a valid entry (R169, R170) -/

theorem State.liveHandle_of_none_valid (free : ∀ e ∈ s.handles, e.valid = false) (h : Byte) :
    s.liveHandle h = none := by
  refine State.liveHandle_eq_none fun e ⟨_, found, live⟩ => ?_
  exact Bool.false_ne_true ((free e (List.mem_of_getElem? found)).symm.trans live)

theorem exec_handleDup_of_not_live {h : Byte} (accepted : s.seq = .busy (.handleDup h) .start)
    (dead : s.liveHandle h = none) : exec (.handleDup h) s = .next (s.failed 3 8) := by
  rw [exec_handleDup_of_start accepted, State.handleDup, dead]
  exact congrArg _ (s.raiseErr_eq_failed_of_start accepted .badHandle rfl)

theorem exec_handleDrop_of_not_live {h : Byte} (accepted : s.seq = .busy (.handleDrop h) .start)
    (dead : s.liveHandle h = none) : exec (.handleDrop h) s = .next (s.failed 3 8) := by
  rw [exec_handleDrop_of_start accepted, State.handleDrop, dead]
  exact congrArg _ (s.raiseErr_eq_failed_of_start accepted .badHandle rfl)

/-- With no valid entry the capacity decides: LINK_INIT raises BAD_CAPACITY or takes the link up, and
either way answers (R140). -/
theorem exec_linkInit_of_none_valid {cap hs buf lenreg : Word16}
    (accepted : s.seq = .busy (.linkInit cap hs buf lenreg) .start)
    (free : ∀ e ∈ s.handles, e.valid = false) :
    ∃ t f, exec (.linkInit cap hs buf lenreg) s = .next t ∧ t.trace = s.trace ++ [.response f] ∧
      (28 ≤ cap.toNat → t.respKind = 0 ∧ t.linkUp = true) := by
  obtain ⟨-, small, enough⟩ := linkInitEstablishes s cap hs buf lenreg accepted
  by_cases legal : 28 ≤ cap.toNat
  · exact ⟨_, _, enough free legal, rfl, fun _ => ⟨rfl, rfl⟩⟩
  · exact ⟨_, _, small free (Nat.lt_of_not_le legal), rfl, fun h => absurd h legal⟩

end

/-- Settles O44: each command stands at its first line, which the lemmas above answer; the response
does not depend on the position it was written from. -/
theorem commandsBeforeLinkInit : Obligations.CommandsBeforeLinkInit := by
  intro s down free runs
  have refused {i : Instr} (needs : Instr.NeedsLink i) : runs i = .next (s.failed 3 10) :=
    exec_of_needsLink (s := { s with seq := .busy i .start }) needs rfl down
  have dead (i : Instr) : ∀ h, ({ s with seq := .busy i .start } : State).liveHandle h = none :=
    State.liveHandle_of_none_valid free
  refine ⟨fun _ _ _ _ => exec_linkInit_of_none_valid rfl free, fun data => ?crcCompute,
    fun h => ⟨exec_handleDup_of_not_live rfl (dead _ h), exec_handleDrop_of_not_live rfl (dead _ h)⟩,
    fun _ _ => refused (.writeReg ..), fun _ _ => refused (.readReg ..),
    fun _ _ => refused (.fileOpen ..), fun _ => refused (.fileRemove _),
    fun _ => refused (.fileLength _), fun _ _ => refused (.fileWrite ..),
    fun _ _ => refused (.fileRead ..)⟩
  case crcCompute =>
    exact ⟨_, _, crcComputeRuns _ data rfl, rfl, rfl, rfl⟩

end Sys2Proof.Machine
end

section
/-! PROOFS. The encodings both ways: the integer fields written back from their bytes, the parser
as the inverse of the packet layout (O5), the decoder as the inverse of the encoder on each port
(O1), the spec's own words (O3), and the host frames of unknown opcodes (O43). -/

namespace Sys2Proof

/-! ### Fields written back from their bytes (R10) -/

theorem leBytes_leValue (bytes : List Byte) : leBytes bytes.length (leValue bytes) = bytes := by
  induction bytes with
  | nil => rfl
  | cons b bs ih =>
    have low : BitVec.ofNat 8 (b.toNat + 256 * leValue bs) = b := by
      apply BitVec.eq_of_toNat_eq
      rw [BitVec.toNat_ofNat]
      omega
    have high : (b.toNat + 256 * leValue bs) / 256 = leValue bs := by omega
    rw [List.length_cons, leValue, leBytes, low, high, ih]

theorem enc_dec (order : ByteOrder) (bytes : List Byte) :
    enc order bytes.length (dec order bytes) = bytes := by
  cases order with
  | le => exact leBytes_leValue bytes
  | be =>
    have reversed := leBytes_leValue bytes.reverse
    rw [List.length_reverse] at reversed
    rw [enc, dec, reversed, List.reverse_reverse]

theorem leValue_lt (bytes : List Byte) : leValue bytes < 256 ^ bytes.length := by
  induction bytes with
  | nil => exact Nat.one_pos
  | cons b bs ih =>
    rw [List.length_cons, leValue, Nat.pow_succ]
    omega

theorem dec_lt (order : ByteOrder) (bytes : List Byte) :
    dec order bytes < 256 ^ bytes.length := by
  cases order with
  | le => exact leValue_lt bytes
  | be => simpa [dec] using leValue_lt bytes.reverse

section
variable (order : ByteOrder) {q : List Byte} {o n : Nat}

theorem length_slice_of_le (inside : o + n ≤ q.length) : (slice q o n).length = n := by
  rw [length_slice]
  omega

/-- A field of `n` bytes inside a byte string, read and written back. -/
theorem enc_ofNat_dec_slice {w : Nat} (width : 256 ^ n = 2 ^ w) (inside : o + n ≤ q.length) :
    enc order n (BitVec.ofNat w (dec order (slice q o n))).toNat = slice q o n := by
  have fits := dec_lt order (slice q o n)
  have written := enc_dec order (slice q o n)
  rw [length_slice_of_le inside] at fits written
  rw [BitVec.toNat_ofNat, ← width, Nat.mod_eq_of_lt fits, written]

theorem be16_rdbe16 (inside : o + 2 ≤ q.length) : be16 (rdbe16 q o) = slice q o 2 :=
  enc_ofNat_dec_slice .be (by norm_num) inside

theorem be32_rdbe32 (inside : o + 4 ≤ q.length) : be32 (rdbe32 q o) = slice q o 4 :=
  enc_ofNat_dec_slice .be (by norm_num) inside

theorem slice_append_drop (q : List Byte) (o n : Nat) :
    slice q o n ++ q.drop (o + n) = q.drop o := by
  rw [slice, ← List.drop_drop, List.take_append_drop]

end

/-! ### The packet layout (R67, R113) -/

/-- The fields at the offsets of R67, in order, are the whole byte string. -/
theorem join_packetFields (q : List Byte) :
    slice q 0 2 ++ (slice q 2 4 ++ (slice q 6 2 ++ (slice q 8 2 ++ (slice q 10 2 ++ (slice q 12 2 ++
      (slice q 14 2 ++ q.drop 16)))))) = q := by
  rw [slice_append_drop q 14 2, slice_append_drop q 12 2, slice_append_drop q 10 2,
    slice_append_drop q 8 2, slice_append_drop q 6 2, slice_append_drop q 2 4,
    slice_append_drop q 0 2, List.drop_zero]

theorem parsePacket_eq_none_iff {q : List Byte} :
    parsePacket q = none ↔ q.length < 16 ∨ q.length ≠ 16 + (rdbe16 q 12).toNat := by
  unfold parsePacket
  split
  case isTrue short => exact iff_of_true rfl (.inl short)
  case isFalse whole =>
    split
    case isTrue differs => exact iff_of_true rfl (.inr differs)
    case isFalse agrees => exact iff_of_false nofun (not_or.mpr ⟨whole, agrees⟩)

/-- What a byte string that is accepted as a packet consists of. -/
theorem eq_packetBytes_of_parsePacket {q : List Byte} {cmd : Word16} {a : Ack}
    (parsed : parsePacket q = some (cmd, a)) :
    q = packetBytes cmd a ∧ a.payload.length < 2 ^ 16 := by
  have whole : ¬ (q.length < 16 ∨ q.length ≠ 16 + (rdbe16 q 12).toNat) := fun bad => by
    rw [parsePacket_eq_none_iff.mpr bad] at parsed
    cases parsed
  obtain ⟨header, size⟩ : 16 ≤ q.length ∧ q.length = 16 + (rdbe16 q 12).toNat := by
    omega
  rw [parsePacket, hdrSize, if_neg header.not_gt, if_neg (not_not.mpr size)] at parsed
  cases parsed
  have length_payload : (q.drop 16).length = (rdbe16 q 12).toNat := by
    rw [List.length_drop]
    omega
  have lengthField : BitVec.ofNat 16 (q.drop 16).length = rdbe16 q 12 := by
    rw [length_payload, BitVec.ofNat_toNat, BitVec.setWidth_eq]
  refine ⟨?layout, length_payload ▸ (rdbe16 q 12).isLt⟩
  case layout =>
    have preamble := enc_ofNat_dec_slice .le (q := q) (o := 0) (n := 2) (w := 16) (by norm_num)
      (by omega)
    simp only [packetBytes, coveredBytes, List.append_assoc, lengthField, preamble]
    rw [be32_rdbe32 (by omega), be16_rdbe16 (by omega), be16_rdbe16 (by omega),
      be16_rdbe16 (by omega), be16_rdbe16 (by omega), be16_rdbe16 (by omega), join_packetFields]

namespace Machine

/-- Settles O5: the fields of an accepted byte string, written back, are its bytes; and the layout
parses to the fields it is built from. -/
theorem parseInvertsLayout : Obligations.ParseInvertsLayout := by
  intro q cmd a
  refine ⟨eq_packetBytes_of_parsePacket, ?_⟩
  rintro ⟨rfl, fits⟩
  exact parsePacket_packetBytes cmd fits

end Machine

/-! ### The host port -/

/-- An opcode outside the table (R90). -/
theorem hostInstr_illegal {op : Byte} (unknown : op ∉ hostOpcodes) (h sel mode : Byte)
    (addr : Word64) (len : Word32) (data : List Byte) :
    hostInstr op h sel mode addr len data = .illegalHostOpcode op := by
  simp only [hostOpcodes, List.mem_cons, List.not_mem_nil, or_false, not_or] at unknown
  simp only [hostInstr, unknown, if_false]

theorem not_carries_of_illegal {op : Byte} (unknown : op ∉ hostOpcodes) :
    ¬ (op = 0x02 ∨ op = 0x04 ∨ op = 0x13) := by
  rintro (rfl | rfl | rfl) <;> exact unknown (by decide)

/-- The packed operands of LINK_INIT as an integer (R88). -/
theorem toNat_linkInitAddr (cap hs buf lenreg : Word16) :
    (linkInitAddr cap hs buf lenreg).toNat =
      cap.toNat * 2 ^ 48 + hs.toNat * 2 ^ 32 + buf.toNat * 2 ^ 16 + lenreg.toNat := by
  have := cap.isLt
  have := hs.isLt
  have := buf.isLt
  have := lenreg.isLt
  have lift (w : Word16) (k : Nat) (place : k ≤ 48) :
      (w.setWidth 64 <<< k).toNat = 2 ^ k * w.toNat := by
    have small : w.toNat * 2 ^ k < 2 ^ 64 :=
      calc w.toNat * 2 ^ k
        _ < 2 ^ 16 * 2 ^ k := Nat.mul_lt_mul_of_pos_right w.isLt (Nat.two_pow_pos k)
        _ ≤ 2 ^ 16 * 2 ^ 48 := Nat.mul_le_mul_left _ (Nat.pow_le_pow_right (by norm_num) place)
        _ = 2 ^ 64 := by norm_num
    have wide : (w.setWidth 64).toNat = w.toNat := by
      rw [BitVec.toNat_setWidth]
      omega
    rw [BitVec.toNat_shiftLeft, wide, Nat.shiftLeft_eq, Nat.mod_eq_of_lt small, Nat.mul_comm]
  have last : (lenreg.setWidth 64).toNat = lenreg.toNat := by
    rw [BitVec.toNat_setWidth]
    omega
  have low : 2 ^ 16 * buf.toNat ||| lenreg.toNat = 2 ^ 16 * buf.toNat + lenreg.toNat :=
    (Nat.two_pow_add_eq_or_of_lt lenreg.isLt _).symm
  have middle : 2 ^ 32 * hs.toNat ||| (2 ^ 16 * buf.toNat + lenreg.toNat) =
      2 ^ 32 * hs.toNat + (2 ^ 16 * buf.toNat + lenreg.toNat) :=
    (Nat.two_pow_add_eq_or_of_lt (by omega) _).symm
  rw [linkInitAddr, BitVec.toNat_or, BitVec.toNat_or, BitVec.toNat_or, last, lift cap 48 le_rfl,
    lift hs 32 (by norm_num), lift buf 16 (by norm_num), Nat.or_assoc, Nat.or_assoc, low, middle,
    ← Nat.two_pow_add_eq_or_of_lt (by omega)]
  ring

/-- A frame that stands alone in the host's stream. -/
theorem decode_hostFrame (cfg : Config) (op h sel mode : Byte) (addr : Word64) (len : Word32)
    {data : List Byte} (complete : data.length = hostDataLength op len) :
    decode cfg .host (hostFrame op h sel mode addr len data) =
      .ok (hostInstr op h sel mode addr len data) := by
  have alone := decodeHost_hostFrame op h sel mode addr len [] complete
  rw [List.append_nil] at alone
  rw [decode, alone]
  rfl

/-- Data that fits the `len` field has the length the field says (R87). -/
theorem length_eq_hostDataLength {op : Byte} (carries : op = 0x02 ∨ op = 0x04 ∨ op = 0x13)
    {data : List Byte} (fits : hostDataFits data = true) :
    data.length = hostDataLength op (dataLen data) := by
  rw [hostDataLength_of_carries carries, dataLen, BitVec.toNat_ofNat,
    Nat.mod_eq_of_lt (of_decide_eq_true fits)]

theorem decode_encode_host (cfg : Config) (reqId : Word16) {i : Instr} (host : i.port = .host)
    (wf : i.wf = true) : decode cfg .host (encode cfg reqId i) = .ok i := by
  have bare (op h sel mode : Byte) (addr : Word64) (len : Word32)
      (notCarries : ¬ (op = 0x02 ∨ op = 0x04 ∨ op = 0x13)) :=
    decode_hostFrame cfg op h sel mode addr len (data := [])
      (hostDataLength_of_not_carries notCarries len).symm
  cases i with
  | linkInit cap hs buf lenreg =>
    exact (bare 0x01 0 0 0 (linkInitAddr cap hs buf lenreg) 0 (by decide)).trans
      (congrArg _ (hostInstr_linkInit 0 0 0 0 [] (toNat_linkInitAddr cap hs buf lenreg)))
  | writeReg addr data =>
    exact decode_hostFrame cfg 0x02 0 0 0 addr (dataLen data)
      (length_eq_hostDataLength (by decide) wf)
  | readReg addr len => exact bare 0x03 0 0 0 addr len (by decide)
  | crcCompute data =>
    exact decode_hostFrame cfg 0x04 0 0 0 0 (dataLen data)
      (length_eq_hostDataLength (by decide) wf)
  | fileOpen sel mode => exact bare 0x10 0 sel mode 0 0 (by decide)
  | fileRemove sel => exact bare 0x11 0 sel 0 0 0 (by decide)
  | fileLength h => exact bare 0x12 h 0 0 0 0 (by decide)
  | fileWrite h data =>
    exact decode_hostFrame cfg 0x13 h 0 0 0 (dataLen data)
      (length_eq_hostDataLength (by decide) wf)
  | fileRead h maxLen => exact bare 0x14 h 0 0 0 maxLen (by decide)
  | handleDup h => exact bare 0x15 h 0 0 0 0 (by decide)
  | handleDrop h => exact bare 0x16 h 0 0 0 0 (by decide)
  | illegalHostOpcode op =>
    have unknown : op ∉ hostOpcodes := by simpa [Instr.wf] using wf
    exact (bare op 0 0 0 0 0 (not_carries_of_illegal unknown)).trans
      (congrArg _ (hostInstr_illegal unknown 0 0 0 0 0 []))
  | readMemRequest | readMemAck | writeMemRequest | writeMemAck | pendingAck | undefinedCommandId
  | opOpen | opClose | opRead | opWrite | opDelete => cases host

/-- A frame of an unknown opcode ends with its header (R90). -/
theorem decodeHost_illegal {bytes : List Byte} (header : 16 ≤ bytes.length)
    (unknown : byteAt bytes 0 ∉ hostOpcodes) :
    decodeHost bytes = .ok (.illegalHostOpcode (byteAt bytes 0), bytes.drop 16) := by
  have noData := hostDataLength_of_not_carries (not_carries_of_illegal unknown) (rdbe32 bytes 12)
  simp only [decodeHost, hdrSize, noData, Nat.add_zero, header.not_gt, if_false,
    hostInstr_illegal unknown]

/-! ### The request port -/

theorem parsePacket_requestPacket {reqId cmd : Word16} {scd : List Byte}
    (fits : scd.length < 2 ^ 16) :
    ∃ a : Ack, parsePacket (requestPacket reqId cmd scd) = some (cmd, a) ∧ a.payload = scd :=
  ⟨_, parsePacket_packetBytes cmd fits, rfl⟩

theorem rdbe64_be64_append (v : Word64) (post : List Byte) : rdbe64 (be64 v ++ post) 0 = v :=
  rdbe64_append_be64 [] post v

theorem decode_buildReadMem (cfg : Config) (reqId : Word16) (addr : Word64) (n : Word16) :
    decode cfg .request (buildReadMem reqId addr n) = .ok (.readMemRequest addr n) := by
  have size : (be64 addr ++ be16 0x0000 ++ be16 n).length = 12 := by simp
  obtain ⟨a, parsed, payload⟩ :=
    parsePacket_requestPacket (reqId := reqId) (cmd := cmdReadMem) (size.trans_lt (by norm_num))
  have address : rdbe64 (be64 addr ++ be16 0x0000 ++ be16 n) 0 = addr := by
    rw [List.append_assoc]
    exact rdbe64_be64_append addr _
  have count : rdbe16 (be64 addr ++ be16 0x0000 ++ be16 n) 10 = n := by
    have field := rdbe16_append_right (pre := be64 addr ++ be16 0x0000) (n := 10) (by simp)
      (be16 n) 0
    rw [Nat.add_zero] at field
    rw [field]
    simpa using rdbe16_be16_append n []
  rw [decode, decodeRequest, buildReadMem, parsed]
  simp only [if_true, payload, size, address, count]

theorem decode_buildWriteMem (cfg : Config) (reqId : Word16) (addr : Word64) {data : List Byte}
    (fits : data.length ≤ 1000) :
    decode cfg .request (buildWriteMem reqId addr data) = .ok (.writeMemRequest addr data) := by
  have size : (be64 addr ++ data).length = 8 + data.length := by simp
  obtain ⟨a, parsed, payload⟩ :=
    parsePacket_requestPacket (reqId := reqId) (cmd := cmdWriteMem) (scd := be64 addr ++ data)
      (by omega)
  have other : ¬ cmdWriteMem = cmdReadMem := by decide
  have hasAddress : ¬ 8 + data.length < 8 := by omega
  have rest : (be64 addr ++ data).drop 8 = data := List.drop_left' (length_be64 addr)
  rw [decode, decodeRequest, buildWriteMem, parsed]
  simp only [other, if_false, if_true, payload, size, hasAddress, rdbe64_be64_append, rest]

/-! ### The received port -/

theorem ackInstr_undefined {cmd : Word16} (undefined : cmd ∉ ackCommandIds) (a : Ack) :
    ackInstr cmd a = .undefinedCommandId cmd a := by
  obtain ⟨notRead, notWrite, notPending⟩ :
      cmd ≠ cmdReadMemAck ∧ cmd ≠ cmdWriteMemAck ∧ cmd ≠ cmdPendingAck := by
    simpa [ackCommandIds, cmdReadMemAck, cmdWriteMemAck, cmdPendingAck] using undefined
  rw [ackInstr, if_neg notRead, if_neg notWrite, if_neg notPending]

theorem decode_received (cfg : Config) (cmd : Word16) {a : Ack} (fits : ackFits a = true) :
    decode cfg .received (packetBytes cmd a) = .ok (ackInstr cmd a) :=
  decodeReceived_packetBytes cmd (of_decide_eq_true fits)

/-! ### The operation port -/

/-- The register bytes of an OperationExecute value decode as the value does. -/
theorem decodeOperationBytes_enc (cfg : Config) (v : Word64) :
    decodeOperationBytes cfg (enc cfg.regOrder 8 v.toNat) = decodeOperation cfg v := by
  have eight : ¬ (enc cfg.regOrder 8 v.toNat).length ≠ 8 := not_not.mpr (length_enc _ _ _)
  have fits : v.toNat % 256 ^ 8 = v.toNat := Nat.mod_eq_of_lt v.isLt
  rw [decodeOperationBytes, if_neg eight, dec_enc, fits, BitVec.ofNat_toNat, BitVec.setWidth_eq]

theorem decode_operationBytes (cfg : Config) (op mode : Word16) (sel : Word32) :
    decode cfg .operation (operationBytes cfg op mode sel) =
      decodeOperation cfg (packOperation op mode sel) :=
  decodeOperationBytes_enc cfg _

/-- The five codes tell the five operations apart (R83). -/
theorem decodeOperation_codes {cfg : Config} (legal : Machine.configOk cfg = true) (mode : Word16)
    (sel : Word32) :
    decodeOperation cfg (packOperation cfg.opOpen mode sel) = .ok (.opOpen mode sel) ∧
      decodeOperation cfg (packOperation cfg.opClose mode sel) = .ok (.opClose mode sel) ∧
      decodeOperation cfg (packOperation cfg.opRead mode sel) = .ok (.opRead mode sel) ∧
      decodeOperation cfg (packOperation cfg.opWrite mode sel) = .ok (.opWrite mode sel) ∧
      decodeOperation cfg (packOperation cfg.opDelete mode sel) = .ok (.opDelete mode sel) := by
  obtain ⟨-, distinct, -⟩ := Machine.configOk_iff.mp legal
  obtain ⟨⟨openClose, openRead, openWrite, openDelete⟩, ⟨closeRead, closeWrite, closeDelete⟩,
    ⟨readWrite, readDelete⟩, writeDelete⟩ := Machine.configR83_iff.mp distinct
  simp [decodeOperation, Machine.extractLsb'_packOperation, openClose.symm, openRead.symm,
    openWrite.symm, openDelete.symm, closeRead.symm, closeWrite.symm, closeDelete.symm,
    readWrite.symm, readDelete.symm, writeDelete.symm]

namespace Machine

/-- Settles O1, port by port: a host frame and a packet decode to the fields they are built from,
and the codes of the operations are distinct in a legal configuration. -/
theorem decodeEncodeAgree : Obligations.DecodeEncodeAgree := by
  intro cfg reqId i legal wf
  have operation := decode_operationBytes cfg
  have codes := decodeOperation_codes legal
  cases i with
  | readMemRequest addr n => exact decode_buildReadMem cfg reqId addr n
  | writeMemRequest addr data =>
    have bounds : 1 ≤ data.length ∧ data.length ≤ 1000 := by
      simpa [Instr.wf, writeRequestFits] using wf
    exact decode_buildWriteMem cfg reqId addr bounds.2
  | readMemAck a => exact decode_received cfg cmdReadMemAck wf
  | writeMemAck a => exact decode_received cfg cmdWriteMemAck wf
  | pendingAck a => exact decode_received cfg cmdPendingAck wf
  | undefinedCommandId cmd a =>
    obtain ⟨undefined, fits⟩ : cmd ∉ ackCommandIds ∧ ackFits a = true := by
      simpa [Instr.wf] using wf
    exact (decode_received cfg cmd fits).trans (congrArg _ (ackInstr_undefined undefined a))
  | opOpen mode sel =>
    obtain ⟨code, -⟩ := codes mode sel
    exact (operation _ _ _).trans code
  | opClose mode sel =>
    obtain ⟨-, code, -⟩ := codes mode sel
    exact (operation _ _ _).trans code
  | opRead mode sel =>
    obtain ⟨-, -, code, -⟩ := codes mode sel
    exact (operation _ _ _).trans code
  | opWrite mode sel =>
    obtain ⟨-, -, -, code, -⟩ := codes mode sel
    exact (operation _ _ _).trans code
  | opDelete mode sel =>
    obtain ⟨-, -, -, -, code⟩ := codes mode sel
    exact (operation _ _ _).trans code
  | linkInit | writeReg | readReg | crcCompute | fileOpen | fileRemove | fileLength | fileWrite
  | fileRead | handleDup | handleDrop | illegalHostOpcode =>
    exact decode_encode_host cfg reqId rfl wf

/-- Settles O3: the decoder evaluated on the five words. -/
theorem specWordsDecode : Obligations.SpecWordsDecode := by
  unfold Obligations.SpecWordsDecode
  decide +kernel

/-- Settles O43: an unknown opcode carries no data and names no command; an IDLE block answers it at
once. -/
theorem illegalOpcodeAnswered : Obligations.IllegalOpcodeAnswered := by
  refine ⟨fun bytes => decodeHost_illegal, fun s op idle => ?answered⟩
  case answered =>
    show execIllegalHostOpcode op s = _
    rw [execIllegalHostOpcode, idle]
    rfl

end Machine

end Sys2Proof
end

section
/-! PROOFS. The CRC-32 checker tells two byte strings apart that differ in one byte (O9): its update
is injective in the register and in the byte. Its check values (O8), and the successor of a request
id (O15). -/

namespace Sys2Proof

/-- The top bit of the new register is the bit that was shifted out: the polynomial has it, a
shifted register has not. -/
theorem msb_crcBit (acc : Word32) : (crcBit acc).getLsbD 31 = acc.getLsbD 0 := by
  have shifted : (acc >>> 1).getLsbD 31 = false := by simp
  have poly : crcPoly.getLsbD 31 = true := by decide
  unfold crcBit
  split
  case isTrue out => rw [BitVec.getLsbD_xor, shifted, poly, out]; rfl
  case isFalse kept => rw [shifted, Bool.eq_false_iff.mpr kept]

/-- A register is its lowest bit and the rest. -/
theorem eq_of_shiftRight_one {x y : Word32} (low : x.getLsbD 0 = y.getLsbD 0)
    (high : x >>> 1 = y >>> 1) : x = y := by
  apply BitVec.eq_of_getLsbD_eq
  intro i _
  cases i with
  | zero => exact low
  | succ i =>
    have bit := congrArg (BitVec.getLsbD · i) high
    simpa [BitVec.getLsbD_ushiftRight, Nat.add_comm] using bit

theorem crcBit_injective : Function.Injective crcBit := by
  intro x y same
  have low : x.getLsbD 0 = y.getLsbD 0 := by rw [← msb_crcBit, ← msb_crcBit, same]
  refine eq_of_shiftRight_one low ?_
  unfold crcBit at same
  rw [low] at same
  split at same
  case isTrue => exact (BitVec.xor_left_inj _).mp same
  case isFalse => exact same

theorem crcByte_injective_register (b : Byte) : Function.Injective (crcByte · b) := by
  intro x y same
  simp only [crcByte_eq_iterate] at same
  exact (BitVec.xor_left_inj _).mp (crcBit_injective.iterate 8 same)

theorem crcByte_injective_byte (acc : Word32) : Function.Injective (crcByte acc) := by
  intro b c same
  simp only [crcByte_eq_iterate] at same
  have wide := (BitVec.xor_right_inj _).mp (crcBit_injective.iterate 8 same)
  have narrow := congrArg (BitVec.setWidth 8) wide
  simpa using narrow

/-- The bytes that follow keep two registers apart. -/
theorem foldl_crcByte_injective (bytes : List Byte) : Function.Injective (bytes.foldl crcByte) := by
  induction bytes with
  | nil => exact Function.injective_id
  | cons b bs ih => exact ih.comp (crcByte_injective_register b)

namespace Machine

/-- Settles O9: the registers agree up to the byte, differ after it, and stay different. -/
theorem crcDetectsOneByte : Obligations.CrcDetectsOneByte := by
  intro pre post b c differ same
  simp only [crc32jam, List.append_assoc, List.foldl_append] at same
  exact differ (crcByte_injective_byte _ (foldl_crcByte_injective post same))

/-- Settles O8: the checker evaluated on the four byte strings. -/
theorem crcCheckValues : Obligations.CrcCheckValues := by
  unfold Obligations.CrcCheckValues
  decide +kernel

/-- Settles O15: below the last id the sum does not wrap. -/
theorem nextRequestId : Obligations.NextRequestId := by
  refine ⟨rfl, fun r nonzero notLast => ?_⟩
  have below : r.toNat + 1 < 2 ^ 16 := by
    have := r.isLt
    have : r.toNat ≠ 65535 := fun h => notLast (BitVec.eq_of_toNat_eq h)
    omega
  have next : (nextId r).toNat = r.toNat + 1 := by
    have other : ¬ r = lastRequestId := notLast
    rw [nextId, if_neg other, BitVec.toNat_add]
    exact Nat.mod_eq_of_lt below
  refine ⟨next, fun zero => ?_⟩
  rw [zero] at next
  cases next

end Machine

end Sys2Proof
end

section
/-! PROOFS. What an instruction and a step can do, said once: the sequencer's operations as moves of
its position, the outcomes of a received packet, everything `exec` can answer and everything a step
can lead to (10_state.md R33). From it: a legal configuration never stops the block (O47), the
decoded instruction is run (O48), and wire instructions act at their positions only (O30). -/

namespace Sys2Proof.Machine

/-! ### Operations that only move the sequencer -/

section
variable (s : State)

theorem State.idle_or_busy : s.seq = .idle ∨ ∃ c pos, s.seq = .busy c pos := by
  cases s.seq with
  | idle => exact .inl rfl
  | busy c pos => exact .inr ⟨c, pos, rfl⟩

@[simp] theorem State.startRead_eq_goto (addr : Word64) (n : Nat) (task : Task) :
    s.startRead addr n task = s.goto (readPosition addr [] task (chunks n s.mrp)) := by
  rw [State.startRead]
  cases chunks n s.mrp <;> rfl

@[simp] theorem State.startWrite_eq_goto (addr : Word64) (data : List Byte) (task : Task) :
    s.startWrite addr data task =
      s.goto (writePosition addr data s.reqId task (chunks data.length s.mwp)) := by
  rw [State.startWrite]
  cases chunks data.length s.mwp <;> rfl

@[simp] theorem State.startOperation_eq_goto (op mode : Word16) (sel : Word32) (task : Task) :
    s.startOperation op mode sel task = s.goto (.operation (packOperation op mode sel) task) := rfl

@[simp] theorem State.chunkDone_eq_goto (op : RegOp) (payload : List Byte) (task : Task) :
    s.chunkDone op payload task = s.goto (op.afterChunk payload task) := by
  cases op with
  | write _ _ _ rest _ _ => cases rest <;> rfl
  | read _ _ rest _ => cases rest <;> rfl

@[simp] theorem State.writeOperation_eq_startWrite (v : Word64) (task : Task) :
    s.writeOperation v task =
      s.startWrite regOperationExecute (enc s.cfg.regOrder sizeOperationExecute v.toNat) task := rfl

@[simp] theorem State.sendPacket_eq_goto (packet : List Byte) (op : RegOp) (task : Task) :
    s.sendPacket packet op task =
      ({ s with txBuf := packet, crcAcc := crc32jam (packet.drop 6) } : State).goto
        (.chunk (op.arm s.reqId) (.busyPoll 0) task) := rfl

@[simp] theorem State.respondOk_eq_respond (handle : Byte) (value : Word32) (data : List Byte) :
    s.respondOk handle value data = s.respond 0 0 handle value data := rfl

@[simp] theorem State.refuseFrame_eq_raiseErr (q : List Byte) :
    s.refuseFrame q = ({ s with rxBuf := q } : State).raiseErr .badFrameLength := rfl

end

/-! ### Host commands -/

/-- The first line of a command, up to its first register operation or its response. An illegal
opcode, and what is no host command, has none. -/
def firstLine (i : Instr) (s : State) : State :=
  match i with
  | .linkInit cap hs buf lenreg => s.linkInit cap hs buf lenreg
  | .writeReg addr data =>
    if s.linkUp then s.startWrite addr data (.writeReg data.length) else s.raiseErr .linkDown
  | .readReg addr len =>
    if s.linkUp then s.startRead addr len.toNat (.readReg len.toNat) else s.raiseErr .linkDown
  | .crcCompute data => { s with crcAcc := crc32jam data }.respondOk 0 (crc32jam data) []
  | .fileOpen sel mode =>
    s.unlessErr (s.checkOpen sel mode)
      fun s => s.startRead regFileStatus sizeFileStatus (.openFirstStatus sel mode)
  | .fileRemove sel =>
    s.unlessErr (s.checkRemove sel)
      fun s => s.startOperation s.cfg.opDelete 0 (sel.setWidth 32) .remove
  | .fileLength h => s.unlessErr (s.checkHandle h none) fun s => s.startSize h .length
  | .fileWrite h data =>
    s.unlessErr (s.checkHandle h (some modeWrite)) fun s => s.startSize h (.writeSize h data)
  | .fileRead h maxLen =>
    s.unlessErr (s.checkHandle h (some modeRead)) fun s => s.startSize h (.readSize h maxLen.toNat)
  | .handleDup h => s.handleDup h
  | .handleDrop h => s.handleDrop h
  | _ => s

section
variable {s : State} {i c : Instr} {pos : Pos}

/-- A host command that is no illegal opcode is issued with its first line. -/
theorem exec_hostCommand (host : i.port = .host) (legal : ∀ op, i ≠ .illegalHostOpcode op)
    (s : State) : exec i s = runCommand i (firstLine i) s := by
  cases i with
  | illegalHostOpcode op => exact absurd rfl (legal op)
  | linkInit | writeReg | readReg | crcCompute | fileOpen | fileRemove | fileLength | fileWrite
  | fileRead | handleDup | handleDrop => rfl
  | readMemRequest | readMemAck | writeMemRequest | writeMemAck | pendingAck | undefinedCommandId
  | opOpen | opClose | opRead | opWrite | opDelete => cases host

/-- An IDLE block accepts every host command but an illegal opcode. -/
theorem exec_of_idle (host : i.port = .host) (legal : ∀ op, i ≠ .illegalHostOpcode op)
    (idle : s.seq = .idle) : exec i s = .next (s.accept i) := by
  rw [exec_hostCommand host legal, runCommand_idle _ _ _ idle]

theorem exec_illegal_of_idle (op : Byte) (idle : s.seq = .idle) :
    exec (.illegalHostOpcode op) s = .next (s.respondErr .unknownOpcode) := by
  show execIllegalHostOpcode op s = _
  rw [execIllegalHostOpcode, idle]

theorem exec_illegal_of_busy (op : Byte) (busy : s.seq = .busy c pos) :
    exec (.illegalHostOpcode op) s = .next s := by
  show execIllegalHostOpcode op s = _
  rw [execIllegalHostOpcode, busy]

/-- A BUSY block holds every host command but the one accepted and not yet begun (R205). -/
theorem exec_of_held (host : i.port = .host) (busy : s.seq = .busy c pos)
    (other : i ≠ c ∨ pos ≠ .start) : exec i s = .next s := by
  by_cases illegal : ∃ op, i = .illegalHostOpcode op
  · obtain ⟨op, rfl⟩ := illegal
    exact exec_illegal_of_busy op busy
  · rw [exec_hostCommand host (not_exists.mp illegal), runCommand_held _ _ _ busy other]

/-! ### Wire packets and OperationExecute values -/

theorem exec_request_elsewhere (request : i.port = .request)
    (elsewhere : ∀ c op task, s.seq ≠ .busy c (.chunk op .encode task)) : exec i s = .next s := by
  have unchanged (f : RegOp → Task → State) : atEncode f s = .next s := by
    unfold atEncode
    split
    case h_1 position => exact absurd position (elsewhere _ _ _)
    case h_2 => rfl
  cases i with
  | readMemRequest addr n => exact unchanged _
  | writeMemRequest addr data => exact unchanged _
  | _ => cases request

theorem exec_received_elsewhere (received : i.port = .received)
    (elsewhere : ∀ c op q task, s.seq ≠ .busy c (.chunk op (.decode q) task)) :
    exec i s = .next s := by
  have unchanged (f : RegOp → Task → State) : atDecode f s = .next s := by
    unfold atDecode
    split
    case h_1 position => exact absurd position (elsewhere _ _ _ _)
    case h_2 => rfl
  cases i with
  | readMemAck a => exact unchanged _
  | writeMemAck a => exact unchanged _
  | pendingAck a => exact unchanged _
  | undefinedCommandId cmd a => exact unchanged _
  | _ => cases received

theorem exec_operation_elsewhere (operation : i.port = .operation)
    (elsewhere : ∀ c v task, s.seq ≠ .busy c (.operation v task)) : exec i s = .next s := by
  have unchanged (op mode : Word16) (sel : Word32) : atOperation op mode sel s = .next s := by
    unfold atOperation
    split
    case h_1 position => exact absurd position (elsewhere _ _ _)
    case h_2 => rfl
  cases i with
  | opOpen mode sel => exact unchanged _ _ _
  | opClose mode sel => exact unchanged _ _ _
  | opRead mode sel => exact unchanged _ _ _
  | opWrite mode sel => exact unchanged _ _ _
  | opDelete mode sel => exact unchanged _ _ _
  | _ => cases operation

/-- Settles O30: the three interfaces, each with its position of the sequencer. -/
theorem wireInstructionsElsewhere : Obligations.WireInstructionsElsewhere := fun _ _ =>
  ⟨exec_request_elsewhere, exec_received_elsewhere, exec_operation_elsewhere⟩

/-- An accepted instruction at its first line; what has no first line changes nothing. -/
theorem exec_of_start (accepted : s.seq = .busy i .start) :
    exec i s = .next (firstLine i s) := by
  have noChunk (c : Instr) (op : RegOp) (phase : Phase) (task : Task) :
      s.seq ≠ .busy c (.chunk op phase task) := by
    rw [accepted]
    nofun
  cases i with
  | illegalHostOpcode op => exact exec_illegal_of_busy op accepted
  | linkInit | writeReg | readReg | crcCompute | fileOpen | fileRemove | fileLength | fileWrite
  | fileRead | handleDup | handleDrop =>
    exact (exec_hostCommand rfl (fun _ => Instr.noConfusion) s).trans
      (runCommand_start s _ _ accepted)
  | readMemRequest | writeMemRequest =>
    exact exec_request_elsewhere rfl fun c op task => noChunk c op .encode task
  | readMemAck | writeMemAck | pendingAck | undefinedCommandId =>
    exact exec_received_elsewhere rfl fun c op q task => noChunk c op (.decode q) task
  | opOpen | opClose | opRead | opWrite | opDelete =>
    refine exec_operation_elsewhere rfl fun c v task => ?_
    rw [accepted]
    nofun

end

/-! ### The outcomes of a received packet (R113, R144, R145, R150) -/

/-- What DECODE and the acceptance of the packet `cmd`, `a` make of `s`: a refusal; past the pending
limit a Timeout; a sleep, with the Pending ack counted; a read chunk or a write chunk that is
over. -/
inductive State.Receives (s : State) (cmd : Word16) (a : Ack) (task : Task) : RegOp → State → Prop
  | refuses (op : RegOp) (e : Err) (notTimeout : isTimeout e = false) :
      s.Receives cmd a task op ((s.received cmd a).raiseErr e)
  | expires (op : RegOp) (limited : s.cfg.pendingLimit ≠ none) :
      s.Receives cmd a task op ((s.received cmd a).raiseErr .pendingTimeout)
  | waits (addr : Word64) (data : List Byte) (cur : Chunk) (rest : List Chunk) (id : Word16)
      (p : Nat) :
      s.Receives cmd a task (.write addr data cur rest id p) ((s.received cmd a).goto
        (.chunk (.write addr data cur rest id (p + 1)) (.sleep (retryAfter a) 0) task))
  | reads (addr : Word64) (cur : Chunk) (rest : List Chunk) (out : List Byte)
      (whole : a.payload.length = cur.size) :
      s.Receives cmd a task (.read addr cur rest out) ((s.received cmd a).goto
        ((RegOp.read addr cur rest out).afterChunk a.payload task))
  | writes (addr : Word64) (data : List Byte) (cur : Chunk) (rest : List Chunk) (id : Word16)
      (p : Nat) :
      s.Receives cmd a task (.write addr data cur rest id p)
        (({ s.received cmd a with reqId := nextId s.reqId } : State).goto
          ((RegOp.write addr data cur rest id p).afterChunk [] task))

section
variable (s : State) (a : Ack) (op : RegOp) (task : Task)

theorem State.onReadMemAck_receives :
    s.Receives cmdReadMemAck a task op (s.onReadMemAck a op task) := by
  unfold State.onReadMemAck
  split
  case isTrue => exact .refuses _ _ rfl
  case isFalse =>
    cases op with
    | write addr data cur rest id p => exact .refuses _ _ rfl
    | read addr cur rest out =>
      dsimp only
      split
      case isTrue => exact .refuses _ _ rfl
      case isFalse =>
        split
        case isTrue => exact .refuses _ _ rfl
        case isFalse whole =>
          rw [State.chunkDone_eq_goto]
          exact .reads _ _ _ _ (not_not.mp whole)

theorem State.onWriteMemAck_receives :
    s.Receives cmdWriteMemAck a task op (s.onWriteMemAck a op task) := by
  unfold State.onWriteMemAck
  split
  case isTrue => exact .refuses _ _ rfl
  case isFalse =>
    cases op with
    | read addr cur rest out => exact .refuses _ _ rfl
    | write addr data cur rest id p =>
      dsimp only
      split
      case isTrue => exact .refuses _ _ rfl
      case isFalse =>
        split
        case isTrue => exact .refuses _ _ rfl
        case isFalse =>
          rw [State.chunkDone_eq_goto]
          exact .writes _ _ _ _ _ _

theorem State.onPendingAck_receives :
    s.Receives cmdPendingAck a task op (s.onPendingAck a op task) := by
  unfold State.onPendingAck
  split
  case isTrue => exact .refuses _ _ rfl
  case isFalse =>
    cases op with
    | read addr cur rest out => exact .refuses _ _ rfl
    | write addr data cur rest id p =>
      dsimp only
      split
      case isTrue => exact .refuses _ _ rfl
      case isFalse =>
        split
        case isTrue exceeded =>
          obtain ⟨l, limited, -⟩ := limitExceeded_iff.mp exceeded
          exact .expires _ (by simp [limited])
        case isFalse => exact .waits _ _ _ _ _ _

theorem State.onOtherPacket_receives (cmd : Word16) :
    s.Receives cmd a task op (s.onOtherPacket cmd a) := by
  unfold State.onOtherPacket
  split <;> exact .refuses _ _ rfl

end

/-! ### Everything an instruction can do -/

/-- The states `exec` answers. -/
inductive Execs (i : Instr) (s : State) : State → Prop
  | unchanged : Execs i s s
  | accepts (idle : s.seq = .idle) (host : i.port = .host)
      (legal : ∀ op, i ≠ .illegalHostOpcode op) : Execs i s (s.accept i)
  | answersIllegal (op : Byte) (illegal : i = .illegalHostOpcode op) (idle : s.seq = .idle) :
      Execs i s (s.respondErr .unknownOpcode)
  | begins (accepted : s.seq = .busy i .start) : Execs i s (firstLine i s)
  | sends {c : Instr} {op : RegOp} {task : Task} (packet : List Byte)
      (position : s.seq = .busy c (.chunk op .encode task)) :
      Execs i s (s.sendPacket packet op task)
  | receives {c : Instr} {op : RegOp} {q : List Byte} {task : Task} {cmd : Word16} {a : Ack}
      {t : State} (position : s.seq = .busy c (.chunk op (.decode q) task))
      (outcome : s.Receives cmd a task op t) : Execs i s t
  | operates {c : Instr} {v : Word64} {task : Task} (w : Word64)
      (position : s.seq = .busy c (.operation v task)) : Execs i s (s.writeOperation w task)

section
variable (i : Instr) (s : State)

theorem exec_host (host : i.port = .host) : ∃ t, exec i s = .next t ∧ Execs i s t := by
  cases seq : s.seq with
  | idle =>
    by_cases illegal : ∃ op, i = .illegalHostOpcode op
    · obtain ⟨op, rfl⟩ := illegal
      exact ⟨_, exec_illegal_of_idle op seq, .answersIllegal op rfl seq⟩
    · have legal := not_exists.mp illegal
      exact ⟨_, exec_of_idle host legal seq, .accepts seq host legal⟩
  | busy c pos =>
    by_cases begins : i = c ∧ pos = .start
    · obtain ⟨rfl, rfl⟩ := begins
      exact ⟨_, exec_of_start seq, .begins seq⟩
    · exact ⟨_, exec_of_held host seq (not_and_or.mp begins), .unchanged⟩

theorem exec_request (request : i.port = .request) : ∃ t, exec i s = .next t ∧ Execs i s t := by
  by_cases here : ∃ c op task, s.seq = .busy c (.chunk op .encode task)
  · obtain ⟨c, op, task, position⟩ := here
    cases i with
    | readMemRequest addr n =>
      exact ⟨_, exec_readMemRequest_of_encode position addr n, .sends _ position⟩
    | writeMemRequest addr data =>
      exact ⟨_, exec_writeMemRequest_of_encode position addr data, .sends _ position⟩
    | _ => cases request
  · exact ⟨s, exec_request_elsewhere request fun c op task at' => here ⟨c, op, task, at'⟩,
      .unchanged⟩

theorem exec_received (received : i.port = .received) :
    ∃ t, exec i s = .next t ∧ Execs i s t := by
  by_cases here : ∃ c op q task, s.seq = .busy c (.chunk op (.decode q) task)
  · obtain ⟨c, op, q, task, position⟩ := here
    cases i with
    | readMemAck a =>
      exact ⟨_, atDecode_of_decode position _, .receives position (s.onReadMemAck_receives ..)⟩
    | writeMemAck a =>
      exact ⟨_, atDecode_of_decode position _, .receives position (s.onWriteMemAck_receives ..)⟩
    | pendingAck a =>
      exact ⟨_, atDecode_of_decode position _, .receives position (s.onPendingAck_receives ..)⟩
    | undefinedCommandId cmd a =>
      exact ⟨_, atDecode_of_decode position _, .receives position (s.onOtherPacket_receives ..)⟩
    | _ => cases received
  · exact ⟨s, exec_received_elsewhere received fun c op q task at' => here ⟨c, op, q, task, at'⟩,
      .unchanged⟩

theorem atOperation_of_operation {s : State} {c : Instr} {v : Word64} {task : Task}
    (position : s.seq = .busy c (.operation v task)) (op mode : Word16) (sel : Word32) :
    atOperation op mode sel s = .next (s.writeOperation (packOperation op mode sel) task) := by
  rw [atOperation, position]

theorem exec_operates (operation : i.port = .operation) :
    ∃ t, exec i s = .next t ∧ Execs i s t := by
  by_cases here : ∃ c v task, s.seq = .busy c (.operation v task)
  · obtain ⟨c, v, task, position⟩ := here
    cases i with
    | opOpen | opClose | opRead | opWrite | opDelete =>
      exact ⟨_, atOperation_of_operation position _ _ _, .operates _ position⟩
    | _ => cases operation
  · exact ⟨s, exec_operation_elsewhere operation fun c v task at' => here ⟨c, v, task, at'⟩,
      .unchanged⟩

/-- Every instruction has a meaning in every state, and it is one of `Execs`. -/
theorem exec_total : ∃ t, exec i s = .next t ∧ Execs i s t := by
  cases port : i.port with
  | host => exact exec_host i s port
  | request => exact exec_request i s port
  | received => exact exec_received i s port
  | operation => exact exec_operates i s port

variable {i s} in
theorem execs_of_exec {t : State} (h : exec i s = .next t) : Execs i s t := by
  obtain ⟨t', answers, execs⟩ := exec_total i s
  rw [h] at answers
  cases answers
  exact execs

end

/-- Settles O47: reset, waiting and the internal computations answer a next state, and so does every
instruction. -/
theorem legalConfigurationNeverStops : Obligations.LegalConfigurationNeverStops := by
  intro s legal
  unfold step
  rw [legal]
  simp only [Bool.not_true, Bool.false_eq_true, if_false]
  split
  case isTrue => exact ⟨_, rfl⟩
  case isFalse =>
    split
    case h_1 i s' _ =>
      obtain ⟨t, answers, -⟩ := exec_total i s'
      exact ⟨t, answers⟩
    case h_2 => split <;> exact ⟨_, rfl⟩

/-! ### Everything a step can do -/

/-- The bytes of the request of a chunk, under the request id `reqId` (R111, R112). -/
def RegOp.packet (reqId : Word16) : RegOp → List Byte
  | .write addr data c _ _ _ => buildWriteMem reqId (chunkAddr addr c) (c.of data)
  | .read addr c _ _ => buildReadMem reqId (chunkAddr addr c) (BitVec.ofNat 16 c.size)

theorem exec_requestOf {s : State} {c : Instr} {op : RegOp} {task : Task}
    (position : s.seq = .busy c (.chunk op .encode task)) :
    exec op.request s = .next (s.sendPacket (op.packet s.reqId) op task) := by
  cases op with
  | write addr data k rest id p => exact exec_writeMemRequest_of_encode position _ _
  | read addr k rest out => exact exec_readMemRequest_of_encode position _ _

/-- The instruction of a received packet, with what it does at a DECODE position. -/
theorem exec_ackInstr {s : State} {c : Instr} {op : RegOp} {q : List Byte} {task : Task}
    (position : s.seq = .busy c (.chunk op (.decode q) task)) (cmd : Word16) (a : Ack) :
    ∃ t, exec (ackInstr cmd a) s = .next t ∧ s.Receives cmd a task op t := by
  unfold ackInstr
  split
  case isTrue isRead =>
    exact ⟨_, atDecode_of_decode position _, isRead ▸ s.onReadMemAck_receives ..⟩
  split
  case isTrue isWrite =>
    exact ⟨_, atDecode_of_decode position _, isWrite ▸ s.onWriteMemAck_receives ..⟩
  split
  case isTrue isPending =>
    exact ⟨_, atDecode_of_decode position _, isPending ▸ s.onPendingAck_receives ..⟩
  case isFalse =>
    exact ⟨_, atDecode_of_decode position _, s.onOtherPacket_receives ..⟩

/-- An OperationExecute value is made up of the three fields the decoder reads (R82). -/
theorem packOperation_extractLsb' (v : Word64) :
    packOperation (v.extractLsb' 0 16) (v.extractLsb' opModeShift 16)
      (v.extractLsb' opSelShift 32) = v := by
  have := v.isLt
  apply BitVec.eq_of_toNat_eq
  simp only [toNat_packOperation, operationValue, BitVec.extractLsb'_toNat, opModeShift, opSelShift,
    Nat.shiftRight_eq_div_pow]
  omega

/-- Whatever an OperationExecute value decodes to, it is this value that is written. -/
theorem exec_decodedOperation {s : State} {c : Instr} {v : Word64} {task : Task} {i : Instr}
    (position : s.seq = .busy c (.operation v task)) (decodes : decodeOperation s.cfg v = .ok i) :
    exec i s = .next (s.writeOperation v task) := by
  obtain ⟨execOpen, execClose, execRead, execWrite, execDelete⟩ :=
    exec_operation (v.extractLsb' opModeShift 16) (v.extractLsb' opSelShift 32) s
  have writes {op : Word16} (code : v.extractLsb' 0 16 = op) :
      atOperation op (v.extractLsb' opModeShift 16) (v.extractLsb' opSelShift 32) s =
        .next (s.writeOperation v task) := by
    rw [atOperation_of_operation position, ← code, packOperation_extractLsb']
  unfold decodeOperation at decodes
  dsimp only at decodes
  split at decodes
  case isTrue code => cases decodes; exact execOpen.trans (writes code)
  split at decodes
  case isTrue code => cases decodes; exact execClose.trans (writes code)
  split at decodes
  case isTrue code => cases decodes; exact execRead.trans (writes code)
  split at decodes
  case isTrue code => cases decodes; exact execWrite.trans (writes code)
  split at decodes
  case isTrue code => cases decodes; exact execDelete.trans (writes code)
  case isFalse => cases decodes

/-- What a step that is no reset does in a block that executes `c` at each position (R33). -/
inductive BusyStep (s : State) (c : Instr) : Pos → State → Prop
  | begins : BusyStep s c .start (firstLine c s)
  | operates (v : Word64) (task : Task) :
      BusyStep s c (.operation v task) (s.writeOperation v task)
  | sends (op : RegOp) (task : Task) :
      BusyStep s c (.chunk op .encode task) (s.sendPacket (op.packet s.reqId) op task)
  | issues (op : RegOp) (phase : Phase) (task : Task) (p : Primitive)
      (issued : s.phasePrimitive phase = some p) : BusyStep s c (.chunk op phase task) (s.issue p)
  | sleeps (op : RegOp) (ms k : Nat) (task : Task) :
      BusyStep s c (.chunk op (.sleep ms k) task) { s with
        trace := s.trace ++ [.sleep ms], seq := .busy c (.chunk op (.readyPoll k) task) }
  | refuses (op : RegOp) (q : List Byte) (task : Task) (noPacket : parsePacket q = none) :
      BusyStep s c (.chunk op (.decode q) task) (s.refuseFrame q)
  | receives (op : RegOp) (q : List Byte) (task : Task) (cmd : Word16) (a : Ack) (t : State)
      (packet : parsePacket q = some (cmd, a)) (outcome : s.Receives cmd a task op t) :
      BusyStep s c (.chunk op (.decode q) task) t
  | continues (bytes : List Byte) (task : Task) :
      BusyStep s c (.opDone bytes task) (s.continueTask bytes task)
  | raises (e : Err) (task : Task) : BusyStep s c (.raised e task) (s.raiseErr e)

section
variable {s t : State} {c : Instr} {pos : Pos} {op : RegOp} {task : Task} {q : List Byte}

theorem step_start (running : s.running) (accepted : s.seq = .busy c .start) :
    step s = .next (firstLine c s) :=
  (step_fetch running (State.fetch_start accepted)).trans (exec_of_start accepted)

theorem step_encode (running : s.running) (position : s.seq = .busy c (.chunk op .encode task)) :
    step s = .next (s.sendPacket (op.packet s.reqId) op task) :=
  (step_fetch running (State.fetch_encode position)).trans (exec_requestOf position)

/-- EXEC of any value, a device code or not. -/
theorem step_writeOperation {v : Word64} (running : s.running)
    (position : s.seq = .busy c (.operation v task)) :
    step s = .next (s.writeOperation v task) := by
  cases decodes : decodeOperation s.cfg v with
  | ok i =>
    have fetched : s.fetch = some (i, s) := by simp only [State.fetch, position, decodes]
    exact (step_fetch running fetched).trans (exec_decodedOperation position decodes)
  | error e =>
    have nothing : s.fetch = none := by simp only [State.fetch, position, decodes]
    rw [step_resume running nothing position]
    simp only [State.resume, position]

theorem decodeReceived_of_parsePacket {cmd : Word16} {a : Ack}
    (packet : parsePacket q = some (cmd, a)) : decodeReceived q = .ok (ackInstr cmd a) := by
  rw [decodeReceived, packet]

theorem step_receive {cmd : Word16} {a : Ack} (running : s.running)
    (position : s.seq = .busy c (.chunk op (.decode q) task))
    (packet : parsePacket q = some (cmd, a)) : step s = exec (ackInstr cmd a) s :=
  step_fetch running (State.fetch_decode position (decodeReceived_of_parsePacket packet))

theorem step_refuseFrame (running : s.running)
    (position : s.seq = .busy c (.chunk op (.decode q) task)) (noPacket : parsePacket q = none) :
    step s = .next (s.refuseFrame q) := by
  have nothing : s.fetch = none := by
    simp only [State.fetch, position, decodeReceived, noPacket]
  rw [step_resume running nothing position]
  simp only [State.resume, position]

/-- Before a primitive the step issues it. -/
theorem step_issue {phase : Phase} {p : Primitive} (running : s.running)
    (position : s.seq = .busy c (.chunk op phase task))
    (issued : s.phasePrimitive phase = some p) : step s = .next (s.issue p) := by
  have nothing : s.fetch = none := by
    cases phase with
    | encode | sleep | decode => cases issued
    | _ => simp only [State.fetch, position]
  rw [step_resume running nothing position]
  cases phase with
  | encode | sleep | decode => cases issued
  | _ => simp only [State.resume, position, issued]

/-- Every step of a BUSY block that is no reset. -/
theorem busyStep (running : s.running) (busy : s.seq = .busy c pos) :
    ∃ t, step s = .next t ∧ BusyStep s c pos t := by
  cases pos with
  | start => exact ⟨_, step_start running busy, .begins⟩
  | operation v task => exact ⟨_, step_writeOperation running busy, .operates v task⟩
  | opDone bytes task => exact ⟨_, step_opDone running busy, .continues bytes task⟩
  | raised e task => exact ⟨_, step_raised running busy, .raises e task⟩
  | chunk op phase task =>
    cases phase with
    | encode => exact ⟨_, step_encode running busy, .sends op task⟩
    | sleep ms k => exact ⟨_, step_sleep running busy, .sleeps op ms k task⟩
    | decode q =>
      cases packet : parsePacket q with
      | none => exact ⟨_, step_refuseFrame running busy packet, .refuses op q task packet⟩
      | some fields =>
        obtain ⟨cmd, a⟩ := fields
        obtain ⟨t, answers, outcome⟩ := exec_ackInstr busy cmd a
        exact ⟨t, (step_receive running busy packet).trans answers,
          .receives op q task cmd a t packet outcome⟩
    | busyPoll | stage | stageLength | txReady | consumedPoll | txClear | readyPoll | readLength
    | readBuffer | rxConsumed | idlePoll | rxClear =>
      exact ⟨_, step_issue running busy rfl, .issues op _ task _ rfl⟩

theorem State.running_of_step (released : s.resetLine = false) (h : step s = .next t) :
    s.running :=
  ⟨(step_cases h).1, released⟩

theorem busyStep_of_step (released : s.resetLine = false) (busy : s.seq = .busy c pos)
    (h : step s = .next t) : BusyStep s c pos t := by
  obtain ⟨t', answers, does⟩ := busyStep (State.running_of_step released h) busy
  rw [h] at answers
  cases answers
  exact does

theorem hostInstr_port (op h sel mode : Byte) (addr : Word64) (len : Word32) (data : List Byte) :
    (hostInstr op h sel mode addr len data).port = .host := by
  unfold hostInstr
  repeat' split
  all_goals rfl

theorem decodeHost_port {bytes rest : List Byte} {i : Instr}
    (frame : decodeHost bytes = .ok (i, rest)) : i.port = .host := by
  unfold decodeHost at frame
  split at frame
  case isTrue => cases frame
  dsimp only at frame
  split at frame
  case isTrue => cases frame
  case isFalse =>
    cases frame
    exact hostInstr_port ..

/-- What a step that is no reset does in an IDLE block: it waits, or takes a frame and accepts its
command or answers its illegal opcode. -/
inductive IdleStep (s : State) : State → Prop
  | waits : IdleStep s s
  | accepts (i : Instr) (rest : List Byte) (host : i.port = .host)
      (legal : ∀ op, i ≠ .illegalHostOpcode op) :
      IdleStep s (({ s with hostIn := rest } : State).accept i)
  | answersIllegal (rest : List Byte) :
      IdleStep s (({ s with hostIn := rest } : State).respondErr .unknownOpcode)

theorem idleStep_of_step (released : s.resetLine = false) (idle : s.seq = .idle)
    (h : step s = .next t) : IdleStep s t := by
  have running := State.running_of_step released h
  cases frame : decodeHost s.hostIn with
  | error e =>
    rw [step_of_idle running idle frame] at h
    cases h
    exact .waits
  | ok found =>
    obtain ⟨i, rest⟩ := found
    let u : State := { s with hostIn := rest }
    have fetched : s.fetch = some (i, { s with hostIn := rest }) := by
      simp only [State.fetch, idle, frame]
    rw [step_fetch running fetched] at h
    by_cases illegal : ∃ op, i = .illegalHostOpcode op
    · obtain ⟨op, rfl⟩ := illegal
      rw [exec_illegal_of_idle (s := u) op idle] at h
      cases h
      exact .answersIllegal rest
    · have legal := not_exists.mp illegal
      rw [exec_of_idle (s := u) (decodeHost_port frame) legal idle] at h
      cases h
      exact .accepts i rest (decodeHost_port frame) legal

/-- Everything a step can do: a reset, or a step of an IDLE or of a BUSY block. -/
theorem step_inversion (h : step s = .next t) :
    t = s.applyReset ∨ (s.resetLine = false ∧ s.seq = .idle ∧ IdleStep s t) ∨
      (s.resetLine = false ∧ ∃ c pos, s.seq = .busy c pos ∧ BusyStep s c pos t) := by
  by_cases asserted : s.resetLine = true
  · rw [step_of_resetLine (step_cases h).1 asserted] at h
    cases h
    exact .inl rfl
  · have released : s.resetLine = false := Bool.eq_false_iff.mpr asserted
    obtain idle | ⟨c, pos, busy⟩ := s.idle_or_busy
    · exact .inr (.inl ⟨released, idle, idleStep_of_step released idle h⟩)
    · exact .inr (.inr ⟨released, c, pos, busy, busyStep_of_step released busy h⟩)

end

/-- Settles O48: the instruction fetched at each kind of position is the one the statement names. -/
theorem stepRunsDecoded : Obligations.StepRunsDecoded := by
  intro s running
  refine ⟨fun i rest idle frame => ?host,
    fun i accepted => step_fetch running (State.fetch_start accepted),
    fun c addr data k ks id p task position => step_fetch running (State.fetch_encode position),
    fun c addr k ks out task position => step_fetch running (State.fetch_encode position),
    fun c op q task i position decodes => step_fetch running (State.fetch_decode position decodes),
    fun c v task i position decodes => ?operation⟩
  case host =>
    exact step_fetch running (by simp only [State.fetch, idle, frame])
  case operation =>
    rw [decode, decodeOperationBytes_enc] at decodes
    exact step_fetch running (by simp only [State.fetch, position, decodes])

end Sys2Proof.Machine
end

section
/-! PROOFS. What the pieces of a step can do, said once: the first line of a command, the pseudocode
after a register operation, and a channel primitive. -/

namespace Sys2Proof.Machine

/-! ### The first line of a command -/

/-- What the first line of `c` makes of `s`: nothing for what has no first line, a refusal, a
response, or the start of a register operation with the link up. -/
inductive State.Begins (s : State) : Instr → State → Prop
  | nothing (c : Instr) (none : c.port ≠ .host ∨ ∃ op, c = .illegalHostOpcode op) : s.Begins c s
  | refuses (c : Instr) (e : Err) (notTimeout : isTimeout e = false) : s.Begins c (s.raiseErr e)
  | establishes (cap hs buf lenreg : Word16) (free : s.anyHandleLive = false)
      (enough : minCapacity ≤ cap.toNat) :
      s.Begins (.linkInit cap hs buf lenreg) ((s.establish cap hs buf lenreg).respondOk 0
        (BitVec.ofNat 32 (min cap.toNat mpsLimit)) [])
  | answersCrc (data : List Byte) :
      s.Begins (.crcCompute data)
        (({ s with crcAcc := crc32jam data } : State).respondOk 0 (crc32jam data) [])
  | writes (addr : Word64) (data : List Byte) (up : s.linkUp = true) :
      s.Begins (.writeReg addr data) (s.startWrite addr data (.writeReg data.length))
  | reads (c : Instr) (addr : Word64) (n : Nat) (task : Task) (up : s.linkUp = true)
      (belongs : task.belongsTo c = true) (afterRead : task.afterRead = true)
      (ok : s.taskOk task = true) : s.Begins c (s.startRead addr n task)
  | removes (sel : Byte) (up : s.linkUp = true) :
      s.Begins (.fileRemove sel) (s.startOperation s.cfg.opDelete 0 (sel.setWidth 32) .remove)
  | copies (h : Byte) (e : Handle) (live : s.liveHandle h = some e) (room : e.refcnt ≠ 65535) :
      s.Begins (.handleDup h)
        ((s.setHandle h.toNat { e with refcnt := e.refcnt + 1 }).respondOk h 0 [])
  | drops (h : Byte) (e : Handle) (live : s.liveHandle h = some e) (others : e.refcnt - 1 ≠ 0) :
      s.Begins (.handleDrop h)
        ((s.setHandle h.toNat { e with refcnt := e.refcnt - 1 }).respondOk 0 0 [])
  | frees (h : Byte) (e : Handle) (live : s.liveHandle h = some e) (down : s.linkUp = false) :
      s.Begins (.handleDrop h)
        ((s.setHandle h.toNat { e with refcnt := 0, valid := false }).respondOk 0 0 [])
  | closes (h : Byte) (e : Handle) (live : s.liveHandle h = some e) (up : s.linkUp = true) :
      s.Begins (.handleDrop h)
        (((s.setHandle h.toNat { e with refcnt := 0, valid := false }).markSelStale
          e.sel).startOperation s.cfg.opClose 0 (e.sel.setWidth 32) .dropClose)

section
variable {s : State}

theorem State.unlessErr_begins {c : Instr} {check : Option Err} {body : State → State}
    (notTimeout : ∀ e, check = some e → isTimeout e = false)
    (passed : check = none → s.Begins c (body s)) : s.Begins c (s.unlessErr check body) := by
  cases check with
  | some e => exact .refuses c e (notTimeout e rfl)
  | none => exact passed rfl

/-- CHECK_HANDLE raises no Timeout, and passes only with the link up. -/
theorem State.checkHandle_inversion (h : Byte) (need : Option (BitVec 2)) :
    (∀ e, s.checkHandle h need = some e → isTimeout e = false) ∧
      (s.checkHandle h need = none → s.linkUp = true) := by
  cases up : s.linkUp with
  | false => simp [State.checkHandle_of_linkDown up, isTimeout, errCode]
  | true =>
    refine ⟨fun e failed => ?_, fun _ => rfl⟩
    simp only [State.checkHandle, up, Bool.not_true, Bool.false_eq_true, if_false] at failed
    split at failed
    case h_1 => cases failed; rfl
    split at failed
    case isTrue => cases failed; rfl
    split at failed
    case h_1 => cases failed
    split at failed
    case isTrue => cases failed
    case isFalse => cases failed; rfl

/-- The checks of FILE_OPEN raise no Timeout; what holds where they pass. -/
theorem State.checkOpen_inversion (sel mode : Byte) :
    (∀ e, s.checkOpen sel mode = some e → isTimeout e = false) ∧
      (s.checkOpen sel mode = none →
        s.linkUp = true ∧ s.knowsSelector sel = true ∧ openModeOk mode = true) := by
  unfold State.checkOpen
  split
  case isTrue => exact ⟨by rintro _ ⟨⟩; rfl, nofun⟩
  split
  case isTrue => exact ⟨by rintro _ ⟨⟩; rfl, nofun⟩
  split
  case isTrue => exact ⟨by rintro _ ⟨⟩; rfl, nofun⟩
  split
  case isTrue => exact ⟨by rintro _ ⟨⟩; rfl, nofun⟩
  case isFalse => simp_all

theorem State.checkRemove_inversion (sel : Byte) :
    (∀ e, s.checkRemove sel = some e → isTimeout e = false) ∧
      (s.checkRemove sel = none → s.linkUp = true) := by
  unfold State.checkRemove
  split
  case isTrue => exact ⟨by rintro _ ⟨⟩; rfl, nofun⟩
  split
  case isTrue => exact ⟨by rintro _ ⟨⟩; rfl, nofun⟩
  case isFalse => simp_all

/-- The three commands on an open file: CHECK_HANDLE, then a read of the size. -/
theorem State.checkedSize_begins {c : Instr} {h : Byte} {need : Option (BitVec 2)} {task : Task}
    (belongs : task.belongsTo c = true) (afterRead : task.afterRead = true)
    (ok : s.taskOk task = true) :
    s.Begins c (s.unlessErr (s.checkHandle h need) fun s => s.startSize h task) := by
  obtain ⟨notTimeout, up⟩ := State.checkHandle_inversion (s := s) h need
  exact State.unlessErr_begins notTimeout fun passed =>
    .reads c _ _ task (up passed) belongs afterRead ok

theorem State.linkInit_begins (cap hs buf lenreg : Word16) :
    s.Begins (.linkInit cap hs buf lenreg) (s.linkInit cap hs buf lenreg) := by
  unfold State.linkInit
  split
  case isTrue => exact .refuses _ _ rfl
  case isFalse free =>
    split
    case isTrue => exact .refuses _ _ rfl
    case isFalse enough =>
      exact .establishes cap hs buf lenreg (Bool.eq_false_iff.mpr free) (Nat.le_of_not_lt enough)

theorem State.handleDup_begins (h : Byte) : s.Begins (.handleDup h) (s.handleDup h) := by
  unfold State.handleDup
  split
  case h_1 => exact .refuses _ _ rfl
  case h_2 e live =>
    split
    case isTrue => exact .refuses _ _ rfl
    case isFalse room => exact .copies h e live room

theorem State.handleDrop_begins (h : Byte) : s.Begins (.handleDrop h) (s.handleDrop h) := by
  unfold State.handleDrop
  split
  case h_1 => exact .refuses _ _ rfl
  case h_2 e live =>
    split
    case isFalse others => exact .drops h e live others
    case isTrue =>
      unfold State.lastDrop
      split
      case isTrue up => exact .closes h e live up
      case isFalse down => exact .frees h e live (Bool.eq_false_iff.mpr down)

theorem State.firstLine_begins (c : Instr) : s.Begins c (firstLine c s) := by
  cases c with
  | linkInit cap hs buf lenreg => exact State.linkInit_begins cap hs buf lenreg
  | writeReg addr data =>
    simp only [firstLine]
    split
    case isTrue up => exact .writes addr data up
    case isFalse => exact .refuses _ _ rfl
  | readReg addr len =>
    simp only [firstLine]
    split
    case isTrue up => exact .reads _ addr _ _ up rfl rfl rfl
    case isFalse => exact .refuses _ _ rfl
  | crcCompute data => exact .answersCrc data
  | fileOpen sel mode =>
    obtain ⟨notTimeout, checked⟩ := State.checkOpen_inversion (s := s) sel mode
    rw [firstLine]
    refine State.unlessErr_begins notTimeout fun passed => ?_
    obtain ⟨up, known, legal⟩ := checked passed
    exact .reads _ _ _ _ up (by simp [Task.belongsTo]) rfl (by simp [State.taskOk, known, legal])
  | fileRemove sel =>
    obtain ⟨notTimeout, up⟩ := State.checkRemove_inversion (s := s) sel
    rw [firstLine]
    exact State.unlessErr_begins notTimeout fun passed => .removes sel (up passed)
  | fileLength h => exact State.checkedSize_begins rfl rfl rfl
  | fileWrite h data => exact State.checkedSize_begins (by simp [Task.belongsTo]) rfl rfl
  | fileRead h maxLen => exact State.checkedSize_begins (by simp [Task.belongsTo]) rfl rfl
  | handleDup h => exact State.handleDup_begins h
  | handleDrop h => exact State.handleDrop_begins h
  | illegalHostOpcode op => exact .nothing _ (.inr ⟨op, rfl⟩)
  | readMemRequest | readMemAck | writeMemRequest | writeMemAck | pendingAck | undefinedCommandId
  | opOpen | opClose | opRead | opWrite | opDelete => exact .nothing _ (.inl Port.noConfusion)

end

/-! ### The pseudocode after a register operation -/

/-- Which register operation follows which in the pseudocode of a command (R164, R167, R168), but
for FILE_OPEN's first snapshot, after which the handles turn stale. -/
inductive Task.Follows : Task → Task → Prop
  | openCloseOpen (sel mode : Byte) : Follows (.openClose sel mode) (.openOpen sel mode)
  | openOpenSecond (sel mode : Byte) : Follows (.openOpen sel mode) (.openSecondStatus sel mode)
  | writeSizeMax (h : Byte) (data : List Byte) : Follows (.writeSize h data) (.writeMaxSize h data)
  | writeMaxLength (h : Byte) (data : List Byte) (c : Chunk) (cs : List Chunk) :
      Follows (.writeMaxSize h data) (.writeLength h data c cs)
  | writeLengthBuffer (h : Byte) (data : List Byte) (c : Chunk) (cs : List Chunk) :
      Follows (.writeLength h data c cs) (.writeBuffer h data c cs)
  | writeBufferExecute (h : Byte) (data : List Byte) (c : Chunk) (cs : List Chunk) :
      Follows (.writeBuffer h data c cs) (.writeExecute h data c cs)
  | writeExecuteNext (h : Byte) (data : List Byte) (c : Chunk) (cs : List Chunk) :
      Follows (.writeExecute h data c cs) (.writeNext h data cs)
  | writeNextLength (h : Byte) (data : List Byte) (c : Chunk) (cs : List Chunk) :
      Follows (.writeNext h data (c :: cs)) (.writeLength h data c cs)
  | readSizeLength (h : Byte) (maxLength n : Nat) (c : Chunk) (cs : List Chunk) :
      Follows (.readSize h maxLength) (.readLength h n c cs [])
  | readLengthExecute (h : Byte) (n : Nat) (c : Chunk) (cs : List Chunk) (out : List Byte) :
      Follows (.readLength h n c cs out) (.readExecute h n c cs out)
  | readExecuteBuffer (h : Byte) (n : Nat) (c : Chunk) (cs : List Chunk) (out : List Byte) :
      Follows (.readExecute h n c cs out) (.readBuffer h n c cs out)
  | readBufferLength (h : Byte) (n : Nat) (c c' : Chunk) (cs : List Chunk) (out bytes : List Byte) :
      Follows (.readBuffer h n c (c' :: cs) out) (.readLength h n c' cs (out ++ bytes))

section
variable {task task' : Task}

theorem Task.Follows.ne (follows : task.Follows task') : task ≠ task' := by
  cases follows <;> exact Task.noConfusion

/-- The operations that follow each other belong to the same command. -/
theorem Task.Follows.belongsTo (follows : task.Follows task') {c : Instr}
    (belongs : task.belongsTo c = true) : task'.belongsTo c = true := by
  cases follows with
  | openCloseOpen | openOpenSecond =>
    cases c with
    | fileOpen => exact belongs
    | _ => cases belongs
  | writeSizeMax | writeMaxLength | writeLengthBuffer | writeBufferExecute | writeExecuteNext
  | writeNextLength =>
    cases c with
    | fileWrite => exact belongs
    | _ => cases belongs
  | readSizeLength =>
    cases c with
    | fileRead => exact (Bool.and_eq_true_iff.mp belongs).1
    | _ => cases belongs
  | readLengthExecute | readExecuteBuffer | readBufferLength =>
    cases c with
    | fileRead => exact belongs
    | _ => cases belongs

end

/-- What the pseudocode makes of `s` where the register operation before `task` is over: a refusal,
a response, the start of the next register operation, or a progress event. -/
inductive State.Continues (s : State) : Task → State → Prop
  | refuses (task : Task) (e : Err) (notTimeout : isTimeout e = false) :
      s.Continues task (s.raiseErr e)
  | answers (task : Task) (value : Word32) (data : List Byte) :
      s.Continues task (s.respondOk 0 value data)
  | allocates (sel mode : Byte) (h : Nat) (free : s.freeHandle? = some h) :
      s.Continues (.openSecondStatus sel mode)
        ((s.setHandle h { valid := true, stale := false, sel := sel, mode := mode.setWidth 2
                          refcnt := 1 }).respondOk (BitVec.ofNat 8 h) 0 [])
  | reads (task task' : Task) (addr : Word64) (n : Nat) (follows : task.Follows task')
      (afterRead : task'.afterRead = true) : s.Continues task (s.startRead addr n task')
  | writes (task task' : Task) (addr : Word64) (data : List Byte) (follows : task.Follows task')
      (afterWrite : task'.afterRead = false) : s.Continues task (s.startWrite addr data task')
  | operates (task task' : Task) (op mode : Word16) (sel : Word32) (follows : task.Follows task')
      (afterWrite : task'.afterRead = false) : s.Continues task (s.startOperation op mode sel task')
  | marksStale (sel mode : Byte) (op m : Word16) (x : Word32) (task' : Task)
      (next : task' = .openClose sel mode ∨ task' = .openOpen sel mode) :
      s.Continues (.openFirstStatus sel mode) (s.markAllStale.startOperation op m x task')
  | progresses (h : Byte) (data : List Byte) (c : Chunk) (cs : List Chunk) :
      s.Continues (.writeExecute h data c cs)
        ((s.emit (.progress (c.off + c.size) data.length)).goto (.opDone [] (.writeNext h data cs)))

section
variable {s : State} {task : Task}

theorem State.fileWriteLoop_continues (h : Byte) (data : List Byte) {cs : List Chunk}
    (follows : ∀ c cs', cs = c :: cs' → task.Follows (.writeLength h data c cs')) :
    s.Continues task (s.fileWriteLoop h data cs) := by
  cases cs with
  | nil => exact .answers _ _ _
  | cons c cs' => exact .writes _ _ _ _ (follows c cs' rfl) rfl

theorem State.fileReadLoop_continues (h : Byte) (n : Nat) (out : List Byte) {cs : List Chunk}
    (follows : ∀ c cs', cs = c :: cs' → task.Follows (.readLength h n c cs' out)) :
    s.Continues task (s.fileReadLoop h n out cs) := by
  cases cs with
  | nil => exact .answers _ _ _
  | cons c cs' => exact .writes _ _ _ _ (follows c cs' rfl) rfl

theorem State.afterSecondStatus_continues (sel mode : Byte) (st : FileStatus) :
    s.Continues (.openSecondStatus sel mode) (s.afterSecondStatus sel mode st) := by
  unfold State.afterSecondStatus
  split
  case isFalse => exact .refuses _ _ rfl
  case isTrue =>
    split
    case h_1 h free => exact .allocates sel mode h free
    case h_2 => exact .refuses _ _ rfl

theorem State.continueTask_continues (bytes : List Byte) (task : Task) :
    s.Continues task (s.continueTask bytes task) := by
  cases task with
  | writeReg | readReg | remove | length | dropClose => exact .answers _ _ _
  | openFirstStatus sel mode =>
    simp only [State.continueTask, State.afterFirstStatus]
    split
    case isTrue => exact .marksStale sel mode _ _ _ _ (.inl rfl)
    case isFalse => exact .marksStale sel mode _ _ _ _ (.inr rfl)
  | openClose sel mode => exact .operates _ _ _ _ _ (.openCloseOpen sel mode) rfl
  | openOpen sel mode => exact .reads _ _ _ _ (.openOpenSecond sel mode) rfl
  | openSecondStatus sel mode => exact State.afterSecondStatus_continues sel mode _
  | writeSize h data =>
    simp only [State.continueTask, State.afterWriteSize]
    split
    case isTrue => exact .refuses _ _ rfl
    case isFalse => exact .reads _ _ _ _ (.writeSizeMax h data) rfl
  | writeMaxSize h data =>
    simp only [State.continueTask, State.afterWriteMaxSize]
    split
    case isTrue => exact .refuses _ _ rfl
    case isFalse =>
      exact State.fileWriteLoop_continues h data fun c cs _ => .writeMaxLength h data c cs
  | writeLength h data c cs => exact .writes _ _ _ _ (.writeLengthBuffer h data c cs) rfl
  | writeBuffer h data c cs => exact .operates _ _ _ _ _ (.writeBufferExecute h data c cs) rfl
  | writeExecute h data c cs => exact .progresses h data c cs
  | writeNext h data cs =>
    refine State.fileWriteLoop_continues h data fun c cs' more => ?_
    subst more
    exact .writeNextLength h data c cs'
  | readSize h maxLength =>
    simp only [State.continueTask, State.afterReadSize]
    split
    case isTrue => exact .refuses _ _ rfl
    case isFalse =>
      split
      case isTrue => exact .refuses _ _ rfl
      case isFalse =>
        exact State.fileReadLoop_continues h _ [] fun c cs _ => .readSizeLength h maxLength _ c cs
  | readLength h n c cs out => exact .operates _ _ _ _ _ (.readLengthExecute h n c cs out) rfl
  | readExecute h n c cs out => exact .reads _ _ _ _ (.readExecuteBuffer h n c cs out) rfl
  | readBuffer h n c cs out =>
    refine State.fileReadLoop_continues h n _ fun c' cs' more => ?_
    subst more
    exact .readBufferLength h n c c' cs' out bytes

end

/-! ### A channel primitive (R125, R129, R130) -/

/-- The phase that follows a phase whose primitive returned `bytes`. -/
inductive Advances (cfg : Config) (mps : Nat) (bytes : List Byte) : Phase → Phase → Prop
  | busyMiss (k : Nat) : Advances cfg mps bytes (.busyPoll k) (.busyPoll (k + 1))
  | busyMatch (k : Nat) : Advances cfg mps bytes (.busyPoll k) .stage
  | staged : Advances cfg mps bytes .stage .stageLength
  | lengthStaged : Advances cfg mps bytes .stageLength .txReady
  | announced : Advances cfg mps bytes .txReady (.consumedPoll 0)
  | consumedMiss (k : Nat) : Advances cfg mps bytes (.consumedPoll k) (.consumedPoll (k + 1))
  | consumedMatch (k : Nat) : Advances cfg mps bytes (.consumedPoll k) .txClear
  | sent : Advances cfg mps bytes .txClear (.readyPoll 0)
  | readyMiss (k : Nat) :
      Advances cfg mps bytes (.readyPoll k) (readyPollAgain cfg.rxPollDelay (k + 1))
  | readyMatch (k : Nat) : Advances cfg mps bytes (.readyPoll k) .readLength
  | lengthRead (m : Nat) (some : 0 < m) (fits : m ≤ mps) :
      Advances cfg mps bytes .readLength (.readBuffer m)
  | empty : Advances cfg mps bytes .readLength (.rxConsumed [])
  | bufferRead (m : Nat) : Advances cfg mps bytes (.readBuffer m) (.rxConsumed bytes)
  | consumed (q : List Byte) : Advances cfg mps bytes (.rxConsumed q) (.idlePoll q 0)
  | idleMiss (q : List Byte) (k : Nat) :
      Advances cfg mps bytes (.idlePoll q k) (.idlePoll q (k + 1))
  | idleMatch (q : List Byte) (k : Nat) : Advances cfg mps bytes (.idlePoll q k) (.rxClear q)
  | released (q : List Byte) : Advances cfg mps bytes (.rxClear q) (.decode q)

theorem readyPollAgain_ne (delay k : Nat) : Phase.readyPoll k ≠ readyPollAgain delay (k + 1) := by
  unfold readyPollAgain
  split
  case isTrue => exact Phase.noConfusion
  case isFalse => intro same; cases same

/-- No primitive leaves the exchange where it was. -/
theorem Advances.ne {cfg : Config} {mps : Nat} {bytes : List Byte} {phase phase' : Phase}
    (advances : Advances cfg mps bytes phase phase') : phase ≠ phase' := by
  cases advances with
  | readyMiss k => exact readyPollAgain_ne _ k
  | busyMiss | consumedMiss | idleMiss => intro same; cases same
  | _ => exact Phase.noConfusion

section
variable {s : State} {c : Instr} {op : RegOp} {phase : Phase} {task : Task} {p : Primitive}

/-- The position after the primitive of `phase` returned `bytes`: before the raise of the error it
led to, or in the phase that follows. -/
inductive State.Leads (s : State) (op : RegOp) (phase : Phase) (task : Task) (bytes : List Byte) :
    Pos → Prop
  | raises (e : Err) (err : s.primitiveErr e = true) :
      s.Leads op phase task bytes (.raised e task)
  | advances (phase' : Phase) (next : Advances s.cfg s.mps.toNat bytes phase phase') :
      s.Leads op phase task bytes (.chunk op phase' task)

theorem State.pollMiss_leads {bytes : List Byte} {again : Phase} (k : Nat)
    (miss : Advances s.cfg s.mps.toNat bytes phase again) :
    ∃ pos, s.pollMiss k op again task = s.goto pos ∧ s.Leads op phase task bytes pos := by
  unfold State.pollMiss
  split
  case isTrue reached =>
    refine ⟨_, rfl, .raises _ ?_⟩
    cases limit : s.cfg.pollLimit with
    | none => simp [limit, limitReached] at reached
    | some l => simp [State.primitiveErr, limit]
  case isFalse => exact ⟨_, rfl, .advances _ miss⟩

theorem State.advance_leads (issued : s.phasePrimitive phase = some p) (bytes : List Byte) :
    ∃ pos, s.advance op phase task bytes = s.goto pos ∧ s.Leads op phase task bytes pos := by
  have next {phase' : Phase} (follows : Advances s.cfg s.mps.toNat bytes phase phase') :
      ∃ pos, s.goto (.chunk op phase' task) = s.goto pos ∧ s.Leads op phase task bytes pos :=
    ⟨_, rfl, .advances _ follows⟩
  cases phase with
  | encode | sleep | decode => cases issued
  | busyPoll k =>
    simp only [State.advance]
    split
    case isTrue => exact next (.busyMatch k)
    case isFalse => exact State.pollMiss_leads _ (.busyMiss k)
  | stage => exact next .staged
  | stageLength => exact next .lengthStaged
  | txReady => exact next .announced
  | consumedPoll k =>
    simp only [State.advance]
    split
    case isTrue => exact next (.consumedMatch k)
    case isFalse => exact State.pollMiss_leads _ (.consumedMiss k)
  | txClear => exact next .sent
  | readyPoll k =>
    simp only [State.advance]
    split
    case isTrue => exact next (.readyMatch k)
    case isFalse => exact State.pollMiss_leads _ (.readyMiss k)
  | readLength =>
    simp only [State.advance, State.responseLength]
    split
    case isTrue => exact ⟨_, rfl, .raises .responseTooLong rfl⟩
    case isFalse fits =>
      split
      case isTrue some => exact next (.lengthRead _ some (Nat.le_of_not_lt fits))
      case isFalse => exact next .empty
  | readBuffer m => exact next (.bufferRead m)
  | rxConsumed q => exact next (.consumed q)
  | idlePoll q k =>
    simp only [State.advance]
    split
    case isTrue => exact next (.idleMatch q k)
    case isFalse => exact State.pollMiss_leads _ (.idleMiss q k)
  | rxClear q => exact next (.released q)

/-- `s` after a primitive: the trace entry, the position it led to, and the inputs left. -/
def State.afterPrimitive (s : State) (c : Instr) (pos : Pos) (e : Event) (as : List Answer)
    (k : Nat) : State :=
  { s with seq := .busy c pos, trace := s.trace ++ [e], answers := as, oracleIdx := k }

theorem State.takeAnswer_inversion (s : State) :
    ∃ a as k, s.takeAnswer = (a, { s with answers := as, oracleIdx := k }) ∧
      ∀ a' rest, s.answers = a' :: rest → a = a' ∧ as = rest := by
  cases answers : s.answers with
  | nil =>
    refine ⟨Config.deviceAnswer s.oracleIdx, [], s.oracleIdx + 1, ?_, nofun⟩
    rw [s.takeAnswer_nil answers, ← answers]
  | cons a as =>
    refine ⟨a, as, s.oracleIdx, s.takeAnswer_cons answers, ?_⟩
    rintro a' rest ⟨⟩
    exact ⟨rfl, rfl⟩

/-- Everything a primitive can do: it takes an answer, stands in the trace with its outcome, and
leads to a raise or to the next phase of the same exchange. -/
theorem State.issue_inversion (position : s.seq = .busy c (.chunk op phase task))
    (issued : s.phasePrimitive phase = some p) :
    ∃ a as k pos, s.issue p = s.afterPrimitive c pos (p.event (p.outcome a)) as k ∧
      (∀ a' rest, s.answers = a' :: rest → a = a' ∧ as = rest) ∧
      ((∃ e, p.outcome a = .error e ∧ pos = .raised e task ∧ s.primitiveErr e = true) ∨
        ∃ bytes, p.outcome a = .ok bytes ∧ s.Leads op phase task bytes pos) := by
  obtain ⟨a, as, k, taken, first⟩ := s.takeAnswer_inversion
  let u : State := { s with answers := as, oracleIdx := k }
  have fed : s.issue p = u.feed p a := by rw [State.issue, taken]
  cases outcome : p.outcome a with
  | error e =>
    refine ⟨a, as, k, .raised e task, ?_, first, .inl ⟨e, outcome, rfl, ?_⟩⟩
    · rw [fed, State.feed_error u outcome position, outcome]
      rfl
    · obtain rfl | rfl := Primitive.outcome_error outcome <;> rfl
  | ok bytes =>
    obtain ⟨pos, advanced, leads⟩ :=
      State.advance_leads (s := u.emit (p.event (.ok bytes))) (op := op) (task := task) issued bytes
    refine ⟨a, as, k, pos, ?_, first, .inr ⟨bytes, outcome, ?_⟩⟩
    · rw [fed, State.feed_ok u outcome position, advanced, State.emit_goto u position, outcome]
      rfl
    · cases leads with
      | raises e err => exact .raises e err
      | advances phase' next => exact .advances phase' next

end

end Sys2Proof.Machine
end

section
/-! PROOFS. The invariant of the block's state: the handle table, the rules by which an operation
keeps the invariant, and that every step keeps it (O58). -/

namespace Sys2Proof.Machine

/-! ### The handle table (R29 to R31) -/

/-- What `Inv` says of the handle table. -/
structure TableOk (c : Config) (hs : List Handle) : Prop where
  length : hs.length = c.numHandles
  entries : ∀ e ∈ hs, handleOk c e = true
  open1 : hs.countP (fun e => e.valid && !e.stale) ≤ 1

theorem oneOpen_iff {hs : List Handle} :
    oneOpen hs = true ↔ hs.countP (fun e => e.valid && !e.stale) ≤ 1 := by
  rw [oneOpen, decide_eq_true_iff, List.countP_eq_length_filter]

theorem inv_iff {s : State} :
    Inv s ↔ TableOk s.cfg s.handles ∧ s.reqId ≠ 0 ∧ 28 ≤ s.mps.toNat ∧ s.mps.toNat ≤ 1024 ∧
      s.seqOk = true := by
  constructor
  · rintro ⟨table, entries, open1, reqId, mpsLow, mpsHigh, seq⟩
    exact ⟨⟨table, List.all_eq_true.mp entries, oneOpen_iff.mp open1⟩, reqId, mpsLow, mpsHigh, seq⟩
  · rintro ⟨⟨table, entries, open1⟩, reqId, mpsLow, mpsHigh, seq⟩
    exact ⟨table, List.all_eq_true.mpr entries, oneOpen_iff.mpr open1, reqId, mpsLow, mpsHigh, seq⟩

theorem handleOk_iff {c : Config} {e : Handle} :
    handleOk c e = true ↔
      (e.valid = true → e.refcnt ≠ 0 ∧ (e.mode = 1 ∨ e.mode = 2) ∧ e.sel ∈ c.knownSelectors) := by
  cases valid : e.valid <;> simp [handleOk, valid, and_assoc]

theorem allStale_iff {hs : List Handle} :
    allStale hs = true ↔ hs.countP (fun e => e.valid && !e.stale) = 0 := by
  simp [allStale, List.countP_eq_zero, or_iff_not_imp_left]

section
variable {c : Config} {hs : List Handle}

/-- A fresh table (R37). -/
theorem tableOk_reset (c : Config) : TableOk c (List.replicate c.numHandles Handle.reset) where
  length := List.length_replicate
  entries e he := by
    rw [List.eq_of_mem_replicate he]
    rfl
  open1 := by simp [List.countP_replicate, Handle.reset]

/-- An entry of the table is written with a legal one that is open only if the entry before was. -/
theorem TableOk.set (ok : TableOk c hs) {n : Nat} {e e' : Handle} (found : hs[n]? = some e)
    (legal : handleOk c e' = true)
    (opens : (e'.valid && !e'.stale) = true → (e.valid && !e.stale) = true) :
    TableOk c (hs.set n e') where
  length := by rw [List.length_set, ok.length]
  entries x hx := (List.mem_or_eq_of_mem_set hx).elim (ok.entries x) fun h => h ▸ legal
  open1 := by
    obtain ⟨inside, rfl⟩ := List.getElem?_eq_some_iff.mp found
    have atMostOne := ok.open1
    rw [List.countP_set inside]
    by_cases opened : (e'.valid && !e'.stale) = true
    · have was := opens opened
      have counted : 0 < hs.countP fun e => e.valid && !e.stale := by
        rw [List.countP_pos_iff]
        exact ⟨hs[n], List.getElem_mem inside, was⟩
      rw [if_pos opened, if_pos was]
      omega
    · rw [if_neg opened]
      omega

/-- Where every valid entry is stale, a legal entry may be opened (R31). -/
theorem TableOk.allocate (ok : TableOk c hs) (stale : allStale hs = true) {n : Nat} {e' : Handle}
    (legal : handleOk c e' = true) : TableOk c (hs.set n e') where
  length := by rw [List.length_set, ok.length]
  entries x hx := (List.mem_or_eq_of_mem_set hx).elim (ok.entries x) fun h => h ▸ legal
  open1 := by
    have none := allStale_iff.mp stale
    by_cases inside : n < hs.length
    · rw [List.countP_set inside, none]
      split <;> split <;> omega
    · rw [List.set_eq_of_length_le (Nat.le_of_not_lt inside), none]
      exact Nat.zero_le 1

variable (p : Byte → Bool)

/-- Marking stale opens nothing. -/
theorem countP_markStale_le (hs : List Handle) :
    (markStale p hs).countP (fun e => e.valid && !e.stale) ≤
      hs.countP fun e => e.valid && !e.stale := by
  rw [markStale, List.countP_map]
  refine List.countP_mono_left fun e _ => ?_
  simp only [Function.comp_apply]
  split <;> simp

theorem TableOk.markStale (ok : TableOk c hs) : TableOk c (markStale p hs) where
  length := by rw [Machine.markStale, List.length_map, ok.length]
  entries x hx := by
    obtain ⟨e, he, rfl⟩ := List.mem_map.mp hx
    have legal := handleOk_iff.mp (ok.entries e he)
    rw [handleOk_iff]
    split <;> exact legal
  open1 := (countP_markStale_le p hs).trans ok.open1

theorem allStale_markStale (stale : allStale hs = true) :
    allStale (Machine.markStale p hs) = true := by
  rw [allStale_iff] at stale ⊢
  exact Nat.le_zero.mp (stale ▸ countP_markStale_le p hs)

theorem allStale_markAllStale (hs : List Handle) :
    allStale (Machine.markStale (fun _ => true) hs) = true := by
  simp only [allStale, Machine.markStale, List.all_map, List.all_eq_true, Function.comp_apply]
  intro e _
  cases valid : e.valid <;> simp [valid]

end

/-! ### The sequencer's part of the invariant -/

/-- What holds past the first line of a command `c` that goes on at `task`. -/
structure State.InTask (s : State) (c : Instr) (task : Task) : Prop where
  up : s.linkUp = true
  belongs : task.belongsTo c = true
  ok : s.taskOk task = true

section
variable {s t : State} {c : Instr} {pos : Pos} {task : Task}

theorem State.seqOk_of_idle (idle : s.seq = .idle) : s.seqOk = true := by
  rw [State.seqOk, idle]

theorem State.seqOk_of_task (busy : s.seq = .busy c pos) (at' : pos.task? = some task) :
    s.seqOk = true ↔ s.InTask c task ∧ s.posOk pos = true := by
  simp only [State.seqOk, busy, at', Bool.and_eq_true]
  exact ⟨fun ⟨⟨⟨up, belongs⟩, fits⟩, ok⟩ => ⟨⟨up, belongs, ok⟩, fits⟩,
    fun ⟨⟨up, belongs, ok⟩, fits⟩ => ⟨⟨⟨up, belongs⟩, fits⟩, ok⟩⟩

theorem State.posOk_congr (cfg : t.cfg = s.cfg) (pos : Pos) : t.posOk pos = s.posOk pos := by
  cases pos with
  | raised e task => cases e <;> simp only [State.posOk, State.primitiveErr, cfg]
  | _ => rfl

theorem State.taskOk_congr (cfg : t.cfg = s.cfg) (handles : t.handles = s.handles) (task : Task) :
    t.taskOk task = s.taskOk task := by
  cases task <;> simp only [State.taskOk, State.knowsSelector, cfg, handles]

/-- The sequencer's part depends on the parameters, the link, the table and the position only. -/
theorem State.seqOk_congr (cfg : t.cfg = s.cfg) (linkUp : t.linkUp = s.linkUp)
    (handles : t.handles = s.handles) (seq : t.seq = s.seq) : t.seqOk = s.seqOk := by
  simp only [State.seqOk, seq, linkUp, State.posOk_congr cfg, State.taskOk_congr cfg handles]

/-! ### Rules -/

theorem Inv.table' (inv : Inv s) : TableOk s.cfg s.handles := (inv_iff.mp inv).1

theorem Inv.inTask (inv : Inv s) (busy : s.seq = .busy c pos) (at' : pos.task? = some task) :
    s.InTask c task ∧ s.posOk pos = true :=
  (State.seqOk_of_task busy at').mp inv.seq

/-- The invariant depends on these elements only. -/
theorem Inv.congr (inv : Inv s) (cfg : t.cfg = s.cfg) (handles : t.handles = s.handles)
    (reqId : t.reqId ≠ 0) (mps : t.mps = s.mps) (seq : t.seqOk = true) : Inv t := by
  obtain ⟨table, -, mpsLow, mpsHigh, -⟩ := inv_iff.mp inv
  refine inv_iff.mpr ⟨?_, reqId, ?_, ?_, seq⟩
  · rwa [cfg, handles]
  · rwa [mps]
  · rwa [mps]

theorem Inv.raiseErr (inv : Inv s) (e : Err) : Inv (s.raiseErr e) :=
  inv.congr (by simp) (by simp) (by simpa using inv.reqId) (by simp)
    (State.seqOk_of_idle (by simp))

/-- A response ends the command; the table it leaves has to be legal. -/
theorem Inv.respondOk {hs : List Handle} (inv : Inv s) (table : TableOk s.cfg hs) (handle : Byte)
    (value : Word32) (data : List Byte) :
    Inv (({ s with handles := hs } : State).respondOk handle value data) := by
  obtain ⟨-, reqId, mpsLow, mpsHigh, -⟩ := inv_iff.mp inv
  exact inv_iff.mpr ⟨table, reqId, mpsLow, mpsHigh, rfl⟩

/-- The block is at another position of the same command. -/
theorem Inv.moves (inv : Inv s) (inTask : s.InTask c task) (cfg : t.cfg = s.cfg)
    (linkUp : t.linkUp = s.linkUp) (handles : t.handles = s.handles) (reqId : t.reqId ≠ 0)
    (mps : t.mps = s.mps) (seq : t.seq = .busy c pos) (at' : pos.task? = some task)
    (fits : s.posOk pos = true) : Inv t := by
  refine inv.congr cfg handles reqId mps ((State.seqOk_of_task seq at').mpr ⟨⟨?_, ?_, ?_⟩, ?_⟩)
  · exact linkUp.trans inTask.up
  · exact inTask.belongs
  · exact (State.taskOk_congr cfg handles task).trans inTask.ok
  · exact (State.posOk_congr cfg pos).trans fits

theorem Inv.goto (inv : Inv s) (busy : s.seq = .busy c pos) {pos' : Pos} (inTask : s.InTask c task)
    (at' : pos'.task? = some task) (fits : s.posOk pos' = true) : Inv (s.goto pos') :=
  inv.moves inTask (by simp) (by simp) (by simp) (by simpa using inv.reqId) (by simp)
    (s.goto_seq_busy busy pos') at' fits

theorem readPosition_task (addr : Word64) (out : List Byte) (task : Task) (cs : List Chunk) :
    (readPosition addr out task cs).task? = some task := by
  cases cs <;> rfl

theorem writePosition_task (addr : Word64) (data : List Byte) (id : Word16) (task : Task)
    (cs : List Chunk) : (writePosition addr data id task cs).task? = some task := by
  cases cs <;> rfl

theorem RegOp.afterChunk_task (op : RegOp) (payload : List Byte) (task : Task) :
    (op.afterChunk payload task).task? = some task := by
  cases op with
  | write _ _ _ rest _ _ => cases rest <;> rfl
  | read _ _ rest _ => cases rest <;> rfl

theorem Inv.startRead (inv : Inv s) (busy : s.seq = .busy c pos) (inTask : s.InTask c task)
    (afterRead : task.afterRead = true) (addr : Word64) (n : Nat) :
    Inv (s.startRead addr n task) := by
  rw [State.startRead_eq_goto]
  refine inv.goto busy inTask (readPosition_task ..) ?_
  cases chunks n s.mrp with
  | nil => rfl
  | cons k ks => simp [readPosition, State.posOk, RegOp.isRead, afterRead]

theorem Inv.startWrite (inv : Inv s) (busy : s.seq = .busy c pos) (inTask : s.InTask c task)
    (afterWrite : task.afterRead = false) (addr : Word64) (data : List Byte) :
    Inv (s.startWrite addr data task) := by
  rw [State.startWrite_eq_goto]
  refine inv.goto busy inTask (writePosition_task ..) ?_
  cases chunks data.length s.mwp with
  | nil => rfl
  | cons k ks => simp [writePosition, State.posOk, RegOp.isRead, afterWrite]

theorem Inv.startOperation (inv : Inv s) (busy : s.seq = .busy c pos) (inTask : s.InTask c task)
    (afterWrite : task.afterRead = false) (op mode : Word16) (sel : Word32) :
    Inv (s.startOperation op mode sel task) := by
  rw [State.startOperation_eq_goto]
  exact inv.goto busy inTask rfl (by simp [State.posOk, afterWrite])

/-- Marking stale keeps the conditions of the command in progress. -/
theorem Inv.markStale (inv : Inv s) (p : Byte → Bool) :
    Inv { s with handles := Machine.markStale p s.handles } := by
  obtain ⟨table, reqId, mpsLow, mpsHigh, seq⟩ := inv_iff.mp inv
  refine inv_iff.mpr ⟨table.markStale p, reqId, mpsLow, mpsHigh, ?_⟩
  obtain idle | ⟨c, pos, busy⟩ := s.idle_or_busy
  · exact State.seqOk_of_idle idle
  cases at' : pos.task? with
  | none =>
    rw [State.seqOk, busy] at seq ⊢
    simpa only [at'] using seq
  | some task =>
    obtain ⟨⟨up, belongs, ok⟩, fits⟩ := inv.inTask busy at'
    refine (State.seqOk_of_task (s := { s with handles := Machine.markStale p s.handles }) busy
      at').mpr ⟨⟨up, belongs, ?_⟩, ?_⟩
    · cases task with
      | openClose | openOpen | openSecondStatus =>
        obtain ⟨operands, stale⟩ := Bool.and_eq_true_iff.mp ok
        exact Bool.and_eq_true_iff.mpr ⟨operands, allStale_markStale p stale⟩
      | _ => exact ok
    · exact (State.posOk_congr rfl pos).trans fits

end

/-! ### The steps of a command -/

section
variable {s t : State} {c : Instr} {pos : Pos} {task : Task}

theorem nextId_ne_zero {r : Word16} (nonzero : r ≠ 0) : nextId r ≠ 0 := by
  by_cases last : r = 65535
  · rw [last]
    decide
  · exact (nextRequestId.2 r nonzero last).2

theorem firstRequestId_ne_zero : firstRequestId ≠ 0 := by decide

/-- The entry of a live handle is legal. -/
theorem Inv.liveHandle (inv : Inv s) {h : Byte} {e : Handle} (live : s.liveHandle h = some e) :
    s.handles[h.toNat]? = some e ∧ e.valid = true ∧
      e.refcnt ≠ 0 ∧ (e.mode = 1 ∨ e.mode = 2) ∧ e.sel ∈ s.cfg.knownSelectors := by
  obtain ⟨-, found, valid⟩ := State.liveHandle_eq_some_iff.mp live
  exact ⟨found, valid, handleOk_iff.mp (inv.table'.entries e (List.mem_of_getElem? found)) valid⟩

/-- The table with another count in a live entry. -/
theorem Inv.tableOk_count (inv : Inv s) {h : Byte} {e : Handle} (live : s.liveHandle h = some e)
    {n : Word16} (nonzero : n ≠ 0) :
    TableOk s.cfg (s.handles.set h.toNat { e with refcnt := n }) := by
  obtain ⟨found, valid, -, mode, known⟩ := inv.liveHandle live
  exact inv.table'.set found (handleOk_iff.mpr fun _ => ⟨nonzero, mode, known⟩) id

/-- The table with a live entry freed. -/
theorem Inv.tableOk_free (inv : Inv s) {h : Byte} {e : Handle} (live : s.liveHandle h = some e) :
    TableOk s.cfg (s.handles.set h.toNat { e with refcnt := 0, valid := false }) := by
  obtain ⟨found, -⟩ := inv.liveHandle live
  exact inv.table'.set found rfl (by simp)

/-- The packet size LINK_INIT writes is legal (R22, R140). -/
theorem State.establish_mps_legal {cap : Word16} (enough : minCapacity ≤ cap.toNat)
    (hs buf lenreg : Word16) :
    28 ≤ (s.establish cap hs buf lenreg).mps.toNat ∧
      (s.establish cap hs buf lenreg).mps.toNat ≤ 1024 := by
  have size : (BitVec.ofNat 11 (min cap.toNat mpsLimit)).toNat = min cap.toNat 1024 := by
    rw [BitVec.toNat_ofNat, mpsLimit]
    exact Nat.mod_eq_of_lt (by omega)
  rw [State.establish_mps, size]
  exact ⟨le_min enough (by norm_num), min_le_right _ _⟩

theorem Inv.establish (inv : Inv s) {cap : Word16} (enough : minCapacity ≤ cap.toNat)
    (hs buf lenreg : Word16) (value : Word32) :
    Inv ((s.establish cap hs buf lenreg).respondOk 0 value []) := by
  obtain ⟨low, high⟩ := State.establish_mps_legal (s := s) enough hs buf lenreg
  exact inv_iff.mpr ⟨inv.table', firstRequestId_ne_zero, low, high, rfl⟩

/-- The first line of an accepted command keeps the invariant. -/
theorem Inv.begins (inv : Inv s) (accepted : s.seq = .busy c .start) (does : s.Begins c t) :
    Inv t := by
  cases does with
  | nothing => exact inv
  | refuses c e => exact inv.raiseErr e
  | establishes cap hs buf lenreg free enough => exact inv.establish enough hs buf lenreg _
  | answersCrc data =>
    exact Inv.respondOk (inv.congr (t := { s with crcAcc := crc32jam data }) rfl rfl inv.reqId rfl
      inv.seq) inv.table' _ _ _
  | writes addr data up => exact inv.startWrite accepted ⟨up, rfl, rfl⟩ rfl addr data
  | reads c addr n task up belongs afterRead ok =>
    exact inv.startRead accepted ⟨up, belongs, ok⟩ afterRead addr n
  | removes sel up => exact inv.startOperation accepted ⟨up, rfl, rfl⟩ rfl _ _ _
  | copies h e live room =>
    refine inv.respondOk (inv.tableOk_count live fun zero => room ?_) _ _ _
    calc e.refcnt = e.refcnt + 1 - 1 := (BitVec.add_sub_cancel _ _).symm
      _ = 0 - 1 := by rw [zero]
  | drops h e live others => exact inv.respondOk (inv.tableOk_count live others) _ _ _
  | frees h e live => exact inv.respondOk (inv.tableOk_free live) _ _ _
  | closes h e live up =>
    have freed : Inv (s.setHandle h.toNat { e with refcnt := 0, valid := false }) := by
      refine inv_iff.mpr ⟨inv.tableOk_free live, inv.reqId, inv.mpsLow, inv.mpsHigh, ?_⟩
      have seq := inv.seq
      rw [State.seqOk, accepted] at seq
      rw [State.seqOk, State.setHandle_seq, accepted]
      exact seq
    exact (freed.markStale _).startOperation accepted ⟨up, rfl, rfl⟩ rfl _ _ _

/-- The pseudocode after a register operation keeps the invariant. -/
theorem Inv.continues {bytes : List Byte} (inv : Inv s)
    (busy : s.seq = .busy c (.opDone bytes task))
    (does : s.Continues task t) : Inv t := by
  obtain ⟨inTask, -⟩ := inv.inTask busy rfl
  have next {task' : Task} (follows : task.Follows task') : s.InTask c task' := by
    refine ⟨inTask.up, follows.belongsTo inTask.belongs, ?_⟩
    have ok := inTask.ok
    cases follows with
    | openCloseOpen | openOpenSecond => exact ok
    | _ => rfl
  cases does with
  | refuses task e => exact inv.raiseErr e
  | answers task value data => exact inv.respondOk inv.table' _ _ _
  | allocates sel mode h free =>
    have ok := inTask.ok
    simp only [State.taskOk, Bool.and_eq_true] at ok
    obtain ⟨⟨known, legal⟩, stale⟩ := ok
    refine inv.respondOk (inv.table'.allocate stale (handleOk_iff.mpr fun _ => ⟨?_, ?_, ?_⟩)) _ _ _
    · exact firstRequestId_ne_zero
    · simp only [openModeOk, Bool.or_eq_true, decide_eq_true_eq] at legal
      rcases legal with rfl | rfl
      · exact .inl rfl
      · exact .inr rfl
    · exact State.knowsSelector_iff.mp known
  | reads task task' addr n follows afterRead =>
    exact inv.startRead busy (next follows) afterRead addr n
  | writes task task' addr data follows afterWrite =>
    exact inv.startWrite busy (next follows) afterWrite addr data
  | operates task task' op mode sel follows afterWrite =>
    exact inv.startOperation busy (next follows) afterWrite op mode sel
  | marksStale sel mode op m x task' which =>
    have closeOk : s.markAllStale.taskOk (.openClose sel mode) = true :=
      Bool.and_eq_true_iff.mpr ⟨inTask.ok, allStale_markAllStale s.handles⟩
    have openOk : s.markAllStale.taskOk (.openOpen sel mode) = true := closeOk
    have stale : Inv s.markAllStale := inv.markStale fun _ => true
    have belongs := inTask.belongs
    obtain rfl | rfl := which
    · refine stale.startOperation busy ⟨inTask.up, ?_, closeOk⟩ rfl op m x
      cases c <;> exact belongs
    · refine stale.startOperation busy ⟨inTask.up, ?_, openOk⟩ rfl op m x
      cases c <;> exact belongs
  | progresses h data k ks =>
    have emitted : Inv (s.emit (.progress (k.off + k.size) data.length)) :=
      inv.congr rfl rfl inv.reqId rfl ((State.seqOk_congr rfl rfl rfl rfl).trans inv.seq)
    obtain ⟨up, belongs, -⟩ := next (.writeExecuteNext h data k ks)
    exact emitted.goto busy ⟨up, belongs, rfl⟩ rfl rfl

/-- DECODE and the acceptance of a packet keep the invariant. -/
theorem Inv.receives {op : RegOp} {q : List Byte} {cmd : Word16} {a : Ack} (inv : Inv s)
    (position : s.seq = .busy c (.chunk op (.decode q) task)) (does : s.Receives cmd a task op t) :
    Inv t := by
  obtain ⟨inTask, fits⟩ := inv.inTask position rfl
  have decoded : Inv (s.received cmd a) :=
    inv.congr rfl rfl inv.reqId rfl ((State.seqOk_congr rfl rfl rfl rfl).trans inv.seq)
  cases does with
  | refuses op e => exact decoded.raiseErr e
  | expires op => exact decoded.raiseErr _
  | waits addr data cur rest id p =>
    exact inv.moves inTask (by simp) (by simp) (by simp) (by simpa using inv.reqId) (by simp)
      (State.goto_seq_busy (s.received cmd a) position _) rfl fits
  | reads addr cur rest out whole =>
    refine inv.moves inTask (by simp) (by simp) (by simp) (by simpa using inv.reqId) (by simp)
      (State.goto_seq_busy (s.received cmd a) position _) (RegOp.afterChunk_task ..) ?_
    cases rest with
    | nil => rfl
    | cons k ks => exact fits
  | writes addr data cur rest id p =>
    refine inv.moves inTask (by simp) (by simp) (by simp) ?_ (by simp)
      (State.goto_seq_busy { s.received cmd a with reqId := nextId s.reqId } position _)
      (RegOp.afterChunk_task ..) ?_
    · simpa using nextId_ne_zero inv.reqId
    · cases rest with
      | nil => rfl
      | cons k ks => exact fits

/-- A step of a BUSY block keeps the invariant. -/
theorem Inv.busyStep (inv : Inv s) (busy : s.seq = .busy c pos) (does : BusyStep s c pos t) :
    Inv t := by
  cases does with
  | begins => exact inv.begins busy (State.firstLine_begins c)
  | continues bytes task => exact inv.continues busy (State.continueTask_continues bytes task)
  | raises e task => exact inv.raiseErr e
  | receives op q task cmd a t packet outcome => exact inv.receives busy outcome
  | operates v task =>
    obtain ⟨inTask, fits⟩ := inv.inTask busy rfl
    exact inv.startWrite busy inTask (by simpa [State.posOk] using fits) _ _
  | refuses op q task =>
    exact Inv.raiseErr (s := { s with rxBuf := q })
      (inv.congr rfl rfl inv.reqId rfl ((State.seqOk_congr rfl rfl rfl rfl).trans inv.seq)) _
  | sleeps op ms k task =>
    obtain ⟨inTask, fits⟩ := inv.inTask busy rfl
    exact inv.moves inTask rfl rfl rfl inv.reqId rfl rfl rfl fits
  | sends op task =>
    obtain ⟨inTask, fits⟩ := inv.inTask busy rfl
    rw [State.sendPacket_busy busy]
    refine inv.moves inTask rfl rfl rfl inv.reqId rfl rfl rfl ?_
    cases op <;> exact fits
  | issues op phase task p issued =>
    obtain ⟨inTask, fits⟩ := inv.inTask busy rfl
    obtain ⟨a, as, k, pos, result, -, outcome⟩ := State.issue_inversion busy issued
    rw [result]
    obtain ⟨e, -, rfl, err⟩ | ⟨bytes, -, leads⟩ := outcome
    · exact inv.moves inTask rfl rfl rfl inv.reqId rfl rfl rfl err
    · cases leads with
      | raises e err => exact inv.moves inTask rfl rfl rfl inv.reqId rfl rfl rfl err
      | advances phase' next => exact inv.moves inTask rfl rfl rfl inv.reqId rfl rfl rfl fits

/-- A step of an IDLE block keeps the invariant. -/
theorem Inv.idleStep (inv : Inv s) (does : IdleStep s t) : Inv t := by
  cases does with
  | waits => exact inv
  | accepts i rest host =>
    exact inv.congr rfl rfl inv.reqId rfl (by simp [State.seqOk, Pos.task?, host])
  | answersIllegal rest =>
    exact inv.congr rfl rfl inv.reqId rfl (State.seqOk_of_idle rfl)

theorem inv_resetWith (cfg : Config) : Inv (State.resetWith cfg) :=
  inv_iff.mpr ⟨tableOk_reset cfg, firstRequestId_ne_zero, Nat.le_refl 28,
    (by norm_num : 28 ≤ 1024), rfl⟩

theorem Inv.applyReset (s : State) : Inv s.applyReset :=
  (inv_resetWith s.cfg).congr rfl rfl firstRequestId_ne_zero rfl rfl

end

/-- Settles O58: a reset, a step of an IDLE block and a step of a BUSY block each keep the
invariant. -/
theorem stepKeepsInv : Obligations.StepKeepsInv := by
  intro s t inv h
  obtain rfl | ⟨-, -, does⟩ | ⟨-, c, pos, busy, does⟩ := step_inversion h
  · exact Inv.applyReset s
  · exact inv.idleStep does
  · exact inv.busyStep busy does

end Sys2Proof.Machine
end

section
/-! PROOFS. The invariant of the packet exchange: the chunks of a register operation fit one packet,
so the request and every received packet fit `MPS`, and every step keeps this (O59). Both invariants
hold after reset (O57). -/

namespace Sys2Proof.Machine

/-! ### What fits a packet (R79, R125, R132) -/

/-- The position's chunks and the packet at hand fit `MPS`. -/
def State.posFits (s : State) : Pos → Prop
  | .chunk op phase _ => s.opFits op = true ∧ s.phaseFits phase = true
  | _ => True

section
variable {s t : State} {c : Instr} {pos : Pos}

theorem packetInv_iff_of_busy (busy : s.seq = .busy c pos) :
    PacketInv s ↔ 28 ≤ s.mps.toNat ∧ s.mps.toNat ≤ 1024 ∧ s.posFits pos := by
  have fits : (match s.seq with
      | .busy _ (.chunk op phase _) => s.opFits op && s.phaseFits phase
      | _ => true) = true ↔ s.posFits pos := by
    rw [busy]
    cases pos <;> simp [State.posFits]
  constructor
  · rintro ⟨low, high, ok⟩
    exact ⟨low, high, fits.mp ok⟩
  · rintro ⟨low, high, ok⟩
    exact ⟨low, high, fits.mpr ok⟩

theorem PacketInv.posFits (inv : PacketInv s) (busy : s.seq = .busy c pos) : s.posFits pos :=
  ((packetInv_iff_of_busy busy).mp inv).2.2

/-- Whether a position's chunks fit depends on `MPS` and the packet being sent only. -/
theorem State.opFits_congr (mps : t.mps = s.mps) (op : RegOp) : t.opFits op = s.opFits op := by
  cases op <;> simp only [State.opFits, mps]

theorem State.phaseFits_congr (mps : t.mps = s.mps) (txBuf : t.txBuf = s.txBuf) (phase : Phase) :
    t.phaseFits phase = s.phaseFits phase := by
  cases phase <;> simp only [State.phaseFits, mps, txBuf]

theorem State.posFits_congr (mps : t.mps = s.mps) (txBuf : t.txBuf = s.txBuf) (pos : Pos) :
    t.posFits pos ↔ s.posFits pos := by
  cases pos with
  | chunk op phase task =>
    simp only [State.posFits, State.opFits_congr mps, State.phaseFits_congr mps txBuf]
  | _ => rfl

/-! ### Rules -/

theorem PacketInv.of_idle (low : 28 ≤ s.mps.toNat) (high : s.mps.toNat ≤ 1024)
    (idle : s.seq = .idle) : PacketInv s :=
  ⟨low, high, by rw [idle]⟩

/-- A command that has ended. -/
theorem PacketInv.ends (inv : PacketInv s) (mps : t.mps = s.mps) (idle : t.seq = .idle) :
    PacketInv t :=
  .of_idle (mps ▸ inv.mpsLow) (mps ▸ inv.mpsHigh) idle

/-- The block is at another position, at which everything fits. -/
theorem PacketInv.moves (inv : PacketInv s) (mps : t.mps = s.mps) (busy : t.seq = .busy c pos)
    (fits : t.posFits pos) : PacketInv t :=
  (packetInv_iff_of_busy busy).mpr ⟨mps ▸ inv.mpsLow, mps ▸ inv.mpsHigh, fits⟩

theorem PacketInv.goto (inv : PacketInv s) (fits : s.posFits pos) : PacketInv (s.goto pos) := by
  obtain idle | ⟨c, q, busy⟩ := s.idle_or_busy
  · rwa [s.goto_idle idle]
  · exact inv.moves (by simp) (s.goto_seq_busy busy pos)
      ((State.posFits_congr (by simp) (by simp) pos).mpr fits)

/-- The chunks of a limit have from one byte to the limit, and end inside the data (R141). -/
theorem chunk_bounds_of_mem {n lim : Nat} {k : Chunk} (mem : k ∈ chunks n lim) :
    1 ≤ k.size ∧ k.size ≤ lim ∧ k.off + k.size ≤ n := by
  rcases Nat.eq_zero_or_pos lim with zero | pos
  · simp [zero, chunks] at mem
  · exact chunk_bounds pos mem

theorem State.opFits_write {addr : Word64} {data : List Byte} {k : Chunk} {ks : List Chunk}
    {id : Word16} {p : Nat} :
    s.opFits (.write addr data k ks id p) = true ↔ ∀ x ∈ k :: ks,
      1 ≤ x.size ∧ x.size ≤ s.mps.toNat - 24 ∧ x.off + x.size ≤ data.length := by
  simp only [State.opFits, List.all_eq_true, Bool.and_eq_true, decide_eq_true_eq, and_assoc]

theorem State.opFits_read {addr : Word64} {k : Chunk} {ks : List Chunk} {out : List Byte} :
    s.opFits (.read addr k ks out) = true ↔ ∀ x ∈ k :: ks,
      1 ≤ x.size ∧ x.size ≤ s.mps.toNat - 16 := by
  simp only [State.opFits, List.all_eq_true, Bool.and_eq_true, decide_eq_true_eq]

theorem State.posFits_readPosition {addr : Word64} {out : List Byte} {task : Task}
    {cs : List Chunk} (fits : ∀ x ∈ cs, 1 ≤ x.size ∧ x.size ≤ s.mps.toNat - 16) :
    s.posFits (readPosition addr out task cs) := by
  cases cs with
  | nil => trivial
  | cons k ks => exact ⟨State.opFits_read.mpr fits, rfl⟩

theorem State.posFits_writePosition {addr : Word64} {data : List Byte} {id : Word16} {task : Task}
    {cs : List Chunk} (fits : ∀ x ∈ cs,
      1 ≤ x.size ∧ x.size ≤ s.mps.toNat - 24 ∧ x.off + x.size ≤ data.length) :
    s.posFits (writePosition addr data id task cs) := by
  cases cs with
  | nil => trivial
  | cons k ks => exact ⟨State.opFits_write.mpr fits, rfl⟩

theorem PacketInv.startRead (inv : PacketInv s) (addr : Word64) (n : Nat) (task : Task) :
    PacketInv (s.startRead addr n task) := by
  rw [State.startRead_eq_goto]
  refine inv.goto (State.posFits_readPosition fun x mem => ?_)
  obtain ⟨some, small, -⟩ := chunk_bounds_of_mem mem
  rw [State.mrp_eq] at small
  omega

theorem PacketInv.startWrite (inv : PacketInv s) (addr : Word64) (data : List Byte) (task : Task) :
    PacketInv (s.startWrite addr data task) := by
  rw [State.startWrite_eq_goto]
  exact inv.goto (State.posFits_writePosition fun x => chunk_bounds_of_mem)

theorem PacketInv.startOperation (inv : PacketInv s) (op mode : Word16) (sel : Word32)
    (task : Task) : PacketInv (s.startOperation op mode sel task) :=
  inv.goto trivial

/-- What stands outside `MPS`, the packet being sent and the position does not matter. -/
theorem PacketInv.congr (inv : PacketInv s) (mps : t.mps = s.mps) (txBuf : t.txBuf = s.txBuf)
    (seq : t.seq = s.seq) : PacketInv t := by
  obtain idle | ⟨c, q, busy⟩ := s.idle_or_busy
  · exact inv.ends mps (seq.trans idle)
  · exact inv.moves mps (seq.trans busy)
      ((State.posFits_congr mps txBuf q).mpr (inv.posFits busy))

/-! ### The steps -/

theorem PacketInv.begins (inv : PacketInv s) (does : s.Begins c t) : PacketInv t := by
  cases does with
  | nothing => exact inv
  | refuses c e => exact inv.ends (by simp) (by simp)
  | establishes cap hs buf lenreg free enough =>
    obtain ⟨low, high⟩ := State.establish_mps_legal (s := s) enough hs buf lenreg
    exact .of_idle low high rfl
  | answersCrc data => exact inv.ends rfl rfl
  | writes addr data up => exact inv.startWrite addr data _
  | reads c addr n task => exact inv.startRead addr n task
  | removes sel up => exact inv.startOperation _ _ _ _
  | copies h e => exact inv.ends rfl rfl
  | drops h e => exact inv.ends rfl rfl
  | frees h e => exact inv.ends rfl rfl
  | closes h e =>
    exact PacketInv.startOperation
      (s := (s.setHandle h.toNat { e with refcnt := 0, valid := false }).markSelStale e.sel)
      (inv.congr rfl rfl rfl) _ _ _ _

theorem PacketInv.continues {task : Task} (inv : PacketInv s) (does : s.Continues task t) :
    PacketInv t := by
  cases does with
  | refuses task e => exact inv.ends (by simp) (by simp)
  | answers task value data => exact inv.ends rfl rfl
  | allocates sel mode h free => exact inv.ends rfl rfl
  | reads task task' addr n => exact inv.startRead addr n task'
  | writes task task' addr data => exact inv.startWrite addr data task'
  | operates task task' op mode sel => exact inv.startOperation op mode sel task'
  | marksStale sel mode op m x task' =>
    exact PacketInv.startOperation (s := s.markAllStale) (inv.congr rfl rfl rfl) op m x task'
  | progresses h data k ks =>
    exact PacketInv.goto (s := s.emit _) (inv.congr rfl rfl rfl) trivial

/-- The request of a chunk that fits is a packet that fits. -/
theorem RegOp.length_packet (mpsLow : 28 ≤ s.mps.toNat) {op : RegOp} (fits : s.opFits op = true)
    (reqId : Word16) :
    16 ≤ (op.packet reqId).length ∧ (op.packet reqId).length ≤ s.mps.toNat := by
  cases op with
  | read addr k ks out =>
    rw [RegOp.packet, length_buildReadMem]
    omega
  | write addr data k ks id p =>
    obtain ⟨some, small, inside⟩ := State.opFits_write.mp fits k List.mem_cons_self
    rw [RegOp.packet, length_buildWriteMem, Chunk.of, length_slice]
    omega

/-- The next phase fits: a length was checked before the packet is read, and the read returned as
many bytes as asked for. -/
theorem State.phaseFits_advances {phase phase' : Phase} {p : Primitive} {a : Answer}
    {bytes : List Byte} (issued : s.phasePrimitive phase = some p)
    (completed : p.outcome a = .ok bytes) (fits : s.phaseFits phase = true)
    (next : Advances s.cfg s.mps.toNat bytes phase phase') : s.phaseFits phase' = true := by
  cases next with
  | busyMiss | busyMatch | staged | lengthStaged | announced | consumedMiss | consumedMatch
  | consumed | idleMiss | idleMatch | released => exact fits
  | sent | readyMatch => rfl
  | readyMiss k =>
    unfold readyPollAgain
    split <;> rfl
  | lengthRead m some small => simp [State.phaseFits, small, Nat.one_le_iff_ne_zero, some.ne']
  | empty => simp [State.phaseFits]
  | bufferRead m =>
    cases issued
    have length_bytes : bytes.length = m := by
      cases a with
      | fail => cases completed
      | done read =>
        rw [Primitive.outcome_read] at completed
        split at completed
        case isTrue length_read => cases completed; exact length_read
        case isFalse => cases completed
    simp only [State.phaseFits, Bool.and_eq_true, decide_eq_true_eq] at fits ⊢
    rw [length_bytes]
    exact fits.2

/-- The chunks that are left after one fit. -/
theorem State.posFits_afterChunk {op : RegOp} (fits : s.opFits op = true) (payload : List Byte)
    (task : Task) : s.posFits (op.afterChunk payload task) := by
  cases op with
  | write addr data k ks id p =>
    cases ks with
    | nil => trivial
    | cons k' ks' =>
      exact ⟨State.opFits_write.mpr fun x mem =>
        State.opFits_write.mp fits x (List.mem_cons_of_mem k mem), rfl⟩
  | read addr k ks out =>
    cases ks with
    | nil => trivial
    | cons k' ks' =>
      exact ⟨State.opFits_read.mpr fun x mem =>
        State.opFits_read.mp fits x (List.mem_cons_of_mem k mem), rfl⟩

theorem PacketInv.receives {op : RegOp} {q : List Byte} {task : Task} {cmd : Word16} {a : Ack}
    (inv : PacketInv s) (position : s.seq = .busy c (.chunk op (.decode q) task))
    (does : s.Receives cmd a task op t) : PacketInv t := by
  obtain ⟨opFits, -⟩ := inv.posFits position
  have decoded : PacketInv (s.received cmd a) := inv.congr rfl rfl rfl
  cases does with
  | refuses op e => exact decoded.ends (by simp) (by simp)
  | expires op => exact decoded.ends (by simp) (by simp)
  | waits addr data cur rest id p =>
    exact decoded.goto ⟨(State.opFits_congr rfl _).trans opFits, rfl⟩
  | reads addr cur rest out whole =>
    exact decoded.goto (State.posFits_afterChunk ((State.opFits_congr rfl _).trans opFits) _ _)
  | writes addr data cur rest id p =>
    exact PacketInv.goto (s := { s.received cmd a with reqId := nextId s.reqId })
      (inv.congr rfl rfl rfl)
      (State.posFits_afterChunk ((State.opFits_congr rfl _).trans opFits) _ _)

theorem PacketInv.busyStep (inv : PacketInv s) (busy : s.seq = .busy c pos)
    (does : BusyStep s c pos t) : PacketInv t := by
  cases does with
  | begins => exact inv.begins (State.firstLine_begins c)
  | continues bytes task => exact inv.continues (State.continueTask_continues bytes task)
  | raises e task => exact inv.ends (by simp) (by simp)
  | receives op q task cmd a t packet outcome => exact inv.receives busy outcome
  | operates v task => exact inv.startWrite _ _ _
  | refuses op q task => exact inv.ends (by simp [State.refuseFrame]) (by simp [State.refuseFrame])
  | sleeps op ms k task =>
    obtain ⟨opFits, -⟩ := inv.posFits busy
    exact inv.moves rfl rfl ⟨(State.opFits_congr rfl _).trans opFits, rfl⟩
  | sends op task =>
    obtain ⟨opFits, -⟩ := inv.posFits busy
    obtain ⟨long, small⟩ := RegOp.length_packet inv.mpsLow opFits s.reqId
    rw [State.sendPacket_busy busy]
    refine inv.moves rfl rfl ⟨?_, ?_⟩
    · refine (State.opFits_congr (s := s) rfl _).trans ?_
      cases op <;> exact opFits
    · simp [State.phaseFits, long, small]
  | issues op phase task p issued =>
    obtain ⟨opFits, phaseFits⟩ := inv.posFits busy
    obtain ⟨a, as, k, pos, result, -, outcome⟩ := State.issue_inversion busy issued
    rw [result]
    refine inv.moves rfl rfl ?_
    obtain ⟨e, -, rfl, -⟩ | ⟨bytes, completed, leads⟩ := outcome
    · trivial
    · cases leads with
      | raises e err => trivial
      | advances phase' next =>
        refine ⟨(State.opFits_congr (s := s) rfl _).trans opFits, ?_⟩
        exact (State.phaseFits_congr (s := s) rfl rfl _).trans
          (State.phaseFits_advances issued completed phaseFits next)

theorem PacketInv.idleStep (inv : PacketInv s) (does : IdleStep s t) : PacketInv t := by
  cases does with
  | waits => exact inv
  | accepts i rest host => exact inv.moves rfl rfl trivial
  | answersIllegal rest => exact inv.ends rfl rfl

theorem packetInv_resetWith (cfg : Config) : PacketInv (State.resetWith cfg) :=
  .of_idle (Nat.le_refl 28) (by norm_num : 28 ≤ 1024) rfl

end

/-- Settles O59: a reset, a step of an IDLE block and a step of a BUSY block each keep the
invariant. -/
theorem stepKeepsPacketInv : Obligations.StepKeepsPacketInv := by
  intro s t inv h
  obtain rfl | ⟨-, -, does⟩ | ⟨-, c, pos, busy, does⟩ := step_inversion h
  · exact (packetInv_resetWith s.cfg).congr rfl rfl rfl
  · exact inv.idleStep does
  · exact inv.busyStep busy does

/-- Settles O57: the reset values are legal for every configuration, EX among them. -/
theorem resetHasInvariants : Obligations.ResetHasInvariants :=
  ⟨inv_resetWith .ex, packetInv_resetWith .ex,
    fun cfg => ⟨inv_resetWith cfg, packetInv_resetWith cfg⟩⟩

end Sys2Proof.Machine
end

section
/-! PROOFS. What every step keeps and adds: the trace only grows, by outputs of the right form (O54,
O56), by one response at the end of a command (O55), with each step advancing the sequencer (O60); a
BUSY block takes no host byte (O49). -/

namespace Sys2Proof.Machine

/-! ### Internal computations (R33) -/

/-- What an internal computation outputs: nothing or a progress event while the command goes on, its
response where it ends. -/
inductive State.Outputs (s : State) (c : Instr) (t : State) : Prop
  | nothing (pos : Pos) (busy : t.seq = .busy c pos) (trace : t.trace = s.trace)
  | progress (written total : Nat) (pos : Pos) (busy : t.seq = .busy c pos)
      (trace : t.trace = s.trace ++ [.progress written total])
  | response (kind sub handle flags : Byte) (value : Word32) (data : List Byte)
      (code : (kind, sub) ∈ responseCodes) (idle : t.seq = .idle)
      (trace : t.trace = s.trace ++ [.response (responseFrame kind sub handle flags value data)])

/-- `t` is what an internal computation of the command `c` makes of `s`: it leaves the inputs as they
are. -/
structure State.Computes (s : State) (c : Instr) (t : State) : Prop where
  hostIn : t.hostIn = s.hostIn
  answers : t.answers = s.answers
  outputs : s.Outputs c t

theorem errCode_mem_responseCodes (e : Err) : errCode e ∈ responseCodes := by
  cases e <;> decide

section
variable {s u t : State} {c : Instr} {pos : Pos}

/-- `u` differs from `s` in nothing an internal computation may not write. -/
structure State.Alike (s u : State) : Prop where
  hostIn : u.hostIn = s.hostIn
  answers : u.answers = s.answers
  seq : u.seq = s.seq
  trace : u.trace = s.trace

theorem State.Alike.refl (s : State) : s.Alike s := ⟨rfl, rfl, rfl, rfl⟩

theorem State.Alike.goto (alike : s.Alike u) (busy : s.seq = .busy c pos) (pos' : Pos) :
    s.Computes c (u.goto pos') where
  hostIn := by simp [alike.hostIn]
  answers := by simp [alike.answers]
  outputs := .nothing pos' (u.goto_seq_busy (alike.seq.trans busy) pos') (by simp [alike.trace])

theorem State.Alike.respond (alike : s.Alike u) {kind sub : Byte}
    (code : (kind, sub) ∈ responseCodes) (handle : Byte) (value : Word32) (data : List Byte) :
    s.Computes c (u.respond kind sub handle value data) where
  hostIn := alike.hostIn
  answers := alike.answers
  outputs := .response kind sub handle (responseFlags u.cmdCrcBad) value data code rfl
    (by simp [alike.trace])

theorem State.Alike.respondOk (alike : s.Alike u) (handle : Byte) (value : Word32)
    (data : List Byte) : s.Computes c (u.respondOk handle value data) :=
  alike.respond (by decide) handle value data

theorem State.Alike.raiseErr (alike : s.Alike u) (e : Err) : s.Computes c (u.raiseErr e) := by
  have down : s.Alike (u.linkDownOnTimeout e) := ⟨alike.1, alike.2, alike.3, alike.4⟩
  unfold State.raiseErr
  split
  · exact down.respondOk 0 0 []
  · exact down.respond (errCode_mem_responseCodes e) 0 0 []

theorem State.Begins.computes (does : s.Begins c t) (busy : s.seq = .busy c pos) :
    s.Computes c t := by
  have same := State.Alike.refl s
  cases does with
  | nothing => exact ⟨rfl, rfl, .nothing pos busy rfl⟩
  | refuses c e => exact same.raiseErr e
  | establishes cap hs buf lenreg =>
    exact State.Alike.respondOk (s := s) (u := s.establish cap hs buf lenreg)
      ⟨rfl, rfl, rfl, rfl⟩ _ _ _
  | answersCrc data =>
    exact State.Alike.respondOk (s := s) (u := { s with crcAcc := crc32jam data })
      ⟨rfl, rfl, rfl, rfl⟩ _ _ _
  | writes addr data =>
    rw [State.startWrite_eq_goto]
    exact same.goto busy _
  | reads c addr n task =>
    rw [State.startRead_eq_goto]
    exact same.goto busy _
  | removes sel => exact same.goto busy _
  | copies h e | drops h e | frees h e =>
    exact State.Alike.respondOk (s := s) (u := s.setHandle h.toNat _)
      ⟨rfl, rfl, rfl, rfl⟩ _ _ _
  | closes h e =>
    exact State.Alike.goto (s := s) (u := (s.setHandle h.toNat _).markSelStale e.sel)
      ⟨rfl, rfl, rfl, rfl⟩ busy _

theorem State.Continues.computes {task : Task} (does : s.Continues task t)
    (busy : s.seq = .busy c pos) : s.Computes c t := by
  have same := State.Alike.refl s
  cases does with
  | refuses task e => exact same.raiseErr e
  | answers task value data => exact same.respondOk 0 value data
  | allocates sel mode h =>
    exact State.Alike.respondOk (s := s) (u := s.setHandle h _) ⟨rfl, rfl, rfl, rfl⟩ _ _ _
  | reads task task' addr n =>
    rw [State.startRead_eq_goto]
    exact same.goto busy _
  | writes task task' addr data =>
    rw [State.startWrite_eq_goto]
    exact same.goto busy _
  | operates task task' op mode sel => exact same.goto busy _
  | marksStale sel mode op m x task' =>
    exact State.Alike.goto (s := s) (u := s.markAllStale) ⟨rfl, rfl, rfl, rfl⟩ busy _
  | progresses h data k ks =>
    rw [s.emit_goto busy]
    exact ⟨rfl, rfl, .progress _ _ _ rfl rfl⟩

theorem State.Receives.computes {op : RegOp} {task : Task} {cmd : Word16} {a : Ack}
    (does : s.Receives cmd a task op t) (busy : s.seq = .busy c pos) : s.Computes c t := by
  have decoded : s.Alike (s.received cmd a) := ⟨rfl, rfl, rfl, rfl⟩
  cases does with
  | refuses op e => exact decoded.raiseErr e
  | expires op => exact decoded.raiseErr _
  | waits => exact decoded.goto busy _
  | reads => exact decoded.goto busy _
  | writes =>
    exact State.Alike.goto (s := s) (u := { s.received cmd a with reqId := nextId s.reqId })
      ⟨rfl, rfl, rfl, rfl⟩ busy _

/-- Before no primitive and no sleep, a step is an internal computation. -/
theorem BusyStep.computes (does : BusyStep s c pos t) (busy : s.seq = .busy c pos)
    (noPrimitive : s.pending = none)
    (noSleep : ∀ op ms k task, pos ≠ .chunk op (.sleep ms k) task) : s.Computes c t := by
  have same := State.Alike.refl s
  cases does with
  | begins => exact (State.firstLine_begins c).computes busy
  | continues bytes task => exact (State.continueTask_continues bytes task).computes busy
  | raises e task => exact same.raiseErr e
  | receives op q task cmd a t packet outcome => exact outcome.computes busy
  | operates v task =>
    rw [State.writeOperation_eq_startWrite, State.startWrite_eq_goto]
    exact same.goto busy _
  | refuses op q task =>
    exact State.Alike.raiseErr (s := s) (u := { s with rxBuf := q }) ⟨rfl, rfl, rfl, rfl⟩ _
  | sends op task =>
    exact State.Alike.goto (s := s) (u :=
      { s with txBuf := op.packet s.reqId, crcAcc := crc32jam ((op.packet s.reqId).drop 6) })
      ⟨rfl, rfl, rfl, rfl⟩ busy _
  | sleeps op ms k task => exact absurd rfl (noSleep op ms k task)
  | issues op phase task p issued =>
    rw [s.pending_chunk busy, issued] at noPrimitive
    cases noPrimitive

/-- The three kinds of a step of a BUSY block: a primitive, a sleep, an internal computation. -/
theorem BusyStep.kinds (does : BusyStep s c pos t) (busy : s.seq = .busy c pos) :
    (∃ op phase task p, pos = .chunk op phase task ∧ s.phasePrimitive phase = some p ∧
        t = s.issue p) ∨
      (∃ op ms k task, pos = .chunk op (.sleep ms k) task ∧ t = { s with
        trace := s.trace ++ [.sleep ms], seq := .busy c (.chunk op (.readyPoll k) task) }) ∨
      (s.pending = none ∧ (∀ op ms k task, pos ≠ .chunk op (.sleep ms k) task) ∧
        s.Computes c t) := by
  by_cases sleeps : ∃ op ms k task, pos = .chunk op (.sleep ms k) task
  · obtain ⟨op, ms, k, task, rfl⟩ := sleeps
    cases does with
    | issues _ _ _ _ issued => cases issued
    | sleeps => exact .inr (.inl ⟨op, ms, k, task, rfl, rfl⟩)
  · have noSleep : ∀ op ms k task, pos ≠ .chunk op (.sleep ms k) task :=
      fun op ms k task here => sleeps ⟨op, ms, k, task, here⟩
    cases pending : s.pending with
    | none => exact .inr (.inr ⟨rfl, noSleep, does.computes busy pending noSleep⟩)
    | some p =>
      obtain ⟨c', op, phase, task, position, issued⟩ := s.pending_some pending
      rw [busy] at position
      cases position
      refine .inl ⟨op, phase, task, p, rfl, issued, ?_⟩
      cases does with
      | issues _ _ _ p' issued' =>
        rw [issued] at issued'
        cases issued'
        rfl
      | sends | sleeps | refuses | receives => cases issued

/-! ### The trace (R36) -/

/-- An entry a step may add to the trace. -/
inductive State.Output (s : State) : Event → Prop
  | response (kind sub handle flags : Byte) (value : Word32) (data : List Byte)
      (code : (kind, sub) ∈ responseCodes) :
      s.Output (.response (responseFrame kind sub handle flags value data))
  | progress (written total : Nat) : s.Output (.progress written total)
  | sleep (ms : Nat) : s.Output (.sleep ms)
  | primitive (p : Primitive) (a : Answer) (pending : s.pending = some p) :
      s.Output (p.event (p.outcome a))

theorem BusyStep.output (does : BusyStep s c pos t) (busy : s.seq = .busy c pos) :
    ∃ es, t.trace = s.trace ++ es ∧ ∀ e ∈ es, s.Output e := by
  obtain ⟨op, phase, task, p, rfl, issued, rfl⟩ | ⟨op, ms, k, task, rfl, rfl⟩ |
    ⟨-, -, computes⟩ := does.kinds busy
  · obtain ⟨a, as, k, pos, result, -⟩ := State.issue_inversion busy issued
    have pending : s.pending = some p := (s.pending_chunk busy).trans issued
    exact ⟨_, by rw [result]; rfl, List.forall_mem_singleton.mpr (.primitive p a pending)⟩
  · exact ⟨_, rfl, List.forall_mem_singleton.mpr (.sleep ms)⟩
  · cases computes.outputs with
    | nothing pos busy trace => exact ⟨[], by rw [trace, List.append_nil], nofun⟩
    | progress written total pos busy trace =>
      exact ⟨_, trace, List.forall_mem_singleton.mpr (.progress written total)⟩
    | response kind sub handle flags value data code idle trace =>
      exact ⟨_, trace, List.forall_mem_singleton.mpr (.response _ _ _ _ _ _ code)⟩

theorem IdleStep.output (does : IdleStep s t) :
    ∃ es, t.trace = s.trace ++ es ∧ ∀ e ∈ es, s.Output e := by
  cases does with
  | waits => exact ⟨[], (List.append_nil _).symm, nofun⟩
  | accepts => exact ⟨[], (List.append_nil _).symm, nofun⟩
  | answersIllegal rest =>
    exact ⟨_, rfl, List.forall_mem_singleton.mpr
      (.response _ _ _ _ _ _ (errCode_mem_responseCodes .unknownOpcode))⟩

/-- The trace only grows, by entries of the four forms. -/
theorem output_of_step (h : step s = .next t) :
    ∃ es, t.trace = s.trace ++ es ∧ ∀ e ∈ es, s.Output e := by
  obtain rfl | ⟨-, -, does⟩ | ⟨-, c, pos, busy, does⟩ := step_inversion h
  · exact ⟨[], (List.append_nil _).symm, nofun⟩
  · exact does.output
  · exact does.output busy

end

/-- Settles O54: a response carries the code it was written with in its first two bytes. -/
theorem responsesOfTable : Obligations.ResponsesOfTable := by
  intro s t h
  obtain ⟨es, grows, outputs⟩ := output_of_step h
  refine ⟨es, grows, fun f mem => ?_⟩
  have output := outputs _ mem
  generalize event : Event.response f = e at output
  cases output with
  | response kind sub handle flags value data code =>
    cases event
    exact code
  | progress | sleep => cases event
  | primitive p a pending =>
    cases p <;> cases outcome : Primitive.outcome _ a <;> rw [outcome] at event <;> cases event

/-! ### Primitives at the channel's locations (R47, R48, R58, R59) -/

/-- What R47 and R48 ask of a primitive in the state `s`: its location, with the width of the
location, and 1 to `MPS` bytes. -/
def State.primitiveOk (s : State) : Primitive → Prop
  | .memRead a n =>
    ((((a = s.busyAddr ∨ a = s.txAddr) ∨ a = s.rxAddr) ∧ n = s.cfg.hsWidth ∨
        a = s.aLen ∧ n = s.cfg.lenWidth) ∨ a = s.aBuf) ∧ 1 ≤ n ∧ n ≤ s.mps.toNat
  | .memWrite a bytes =>
    (((a = s.txAddr ∨ a = s.rxAddr) ∧ bytes.length = s.cfg.hsWidth ∨
        a = s.aLen ∧ bytes.length = s.cfg.lenWidth) ∨ a = s.aBuf ∧ 16 ≤ bytes.length) ∧
      1 ≤ bytes.length ∧ bytes.length ≤ s.mps.toNat

section
variable {s : State}

theorem State.event_ok {p : Primitive} (ok : s.primitiveOk p) (outcome : Except Err (List Byte)) :
    s.inMap (p.event outcome) = true ∧ s.fitsMps (p.event outcome) = true := by
  cases p with
  | memRead a n =>
    cases outcome <;>
      simpa [State.primitiveOk, State.inMap, State.fitsMps, Primitive.event, State.busyAddr,
        State.txAddr, State.rxAddr] using ok
  | memWrite a bytes =>
    cases outcome <;>
      simpa [State.primitiveOk, State.inMap, State.fitsMps, Primitive.event, State.txAddr,
        State.rxAddr] using ok

/-- The widths of a legal configuration: a flag has from one byte to the least legal `MPS`, as two
of its values differ, and so has the length register; the values written are as wide as the flag. -/
theorem config_widths {c : Config} (legal : configOk c = true) :
    (1 ≤ c.hsWidth ∧ c.hsWidth ≤ 28) ∧ (1 ≤ c.lenWidth ∧ c.lenWidth ≤ 28) ∧
      c.vTxReady.length = c.hsWidth ∧ c.vTxClear.length = c.hsWidth ∧
      c.vRxConsumed.length = c.hsWidth ∧ c.vRxClear.length = c.hsWidth := by
  obtain ⟨hR8, -, bounds⟩ := configOk_iff.mp legal
  obtain ⟨⟨-, txReady, txConsumed, txClear, -, rxConsumed, -, rxClear⟩, ⟨differ, -⟩, -, -, -,
    lenMin, lenMax⟩ := configR8_iff.mp hR8
  have wide : 1 ≤ c.hsWidth := by
    by_contra none
    have zero : c.hsWidth = 0 := by omega
    rw [zero, List.length_eq_zero_iff] at txReady txConsumed
    exact differ (txConsumed.trans txReady.symm)
  have narrow : c.hsWidth ≤ 28 := by
    simp only [configBounds, List.all_cons, id, Bool.and_eq_true, decide_eq_true_eq] at bounds
    obtain ⟨-, -, narrow, -⟩ := bounds
    exact narrow
  exact ⟨⟨wide, narrow⟩, ⟨by omega, by omega⟩, txReady, txClear, rxConsumed, rxClear⟩

/-- The primitive of each phase is at the phase's location. -/
theorem PacketInv.primitiveOk (inv : PacketInv s) (legal : configOk s.cfg = true) {p : Primitive}
    (pending : s.pending = some p) : s.primitiveOk p := by
  obtain ⟨c, op, phase, task, position, issued⟩ := s.pending_some pending
  obtain ⟨-, fits⟩ := inv.posFits position
  obtain ⟨⟨flagMin, flagMax⟩, ⟨lenMin, lenMax⟩, txReady, txClear, rxConsumed, rxClear⟩ :=
    config_widths legal
  have low := inv.mpsLow
  have flag : 1 ≤ s.cfg.hsWidth ∧ s.cfg.hsWidth ≤ s.mps.toNat := ⟨flagMin, flagMax.trans low⟩
  have length : 1 ≤ s.cfg.lenWidth ∧ s.cfg.lenWidth ≤ s.mps.toNat := ⟨lenMin, lenMax.trans low⟩
  cases phase with
  | encode | sleep | decode => cases issued
  | busyPoll k => cases issued; exact ⟨.inl (.inl ⟨.inl (.inl rfl), rfl⟩), flag⟩
  | consumedPoll k => cases issued; exact ⟨.inl (.inl ⟨.inl (.inr rfl), rfl⟩), flag⟩
  | readyPoll k => cases issued; exact ⟨.inl (.inl ⟨.inr rfl, rfl⟩), flag⟩
  | idlePoll q k => cases issued; exact ⟨.inl (.inl ⟨.inr rfl, rfl⟩), flag⟩
  | readLength => cases issued; exact ⟨.inl (.inr ⟨rfl, rfl⟩), length⟩
  | readBuffer m =>
    cases issued
    simp only [State.phaseFits, Bool.and_eq_true, decide_eq_true_eq] at fits
    exact ⟨.inr rfl, fits⟩
  | stage =>
    cases issued
    simp only [State.phaseFits, Bool.and_eq_true, decide_eq_true_eq] at fits
    exact ⟨.inr ⟨rfl, fits.1⟩, by omega, fits.2⟩
  | stageLength =>
    cases issued
    exact ⟨.inl (.inr ⟨rfl, length_enc ..⟩), by simpa using length⟩
  | txReady => cases issued; exact ⟨.inl (.inl ⟨.inl rfl, txReady⟩), by rwa [txReady]⟩
  | txClear => cases issued; exact ⟨.inl (.inl ⟨.inl rfl, txClear⟩), by rwa [txClear]⟩
  | rxConsumed q => cases issued; exact ⟨.inl (.inl ⟨.inr rfl, rxConsumed⟩), by rwa [rxConsumed]⟩
  | rxClear q => cases issued; exact ⟨.inl (.inl ⟨.inr rfl, rxClear⟩), by rwa [rxClear]⟩

end

/-- Settles O56: what a step adds to the trace is the pending primitive or no primitive at all. -/
theorem primitivesInMap : Obligations.PrimitivesInMap := by
  intro s t inv h
  obtain ⟨legal, -⟩ := step_cases h
  obtain ⟨es, grows, outputs⟩ := output_of_step h
  refine ⟨es, grows, fun e mem => ?_⟩
  cases outputs e mem with
  | response | progress | sleep => exact ⟨rfl, rfl⟩
  | primitive p a pending => exact State.event_ok (inv.primitiveOk legal pending) _

/-! ### One response per command (R205) -/

theorem Primitive.isResponse_event (p : Primitive) (outcome : Except Err (List Byte)) :
    (p.event outcome).isResponse = false := by
  cases p <;> cases outcome <;> rfl

section
variable {s t : State} {c : Instr} {pos : Pos}

/-- A step of a BUSY block adds a response exactly if it ends the command. -/
theorem BusyStep.oneResponse (does : BusyStep s c pos t) (busy : s.seq = .busy c pos) :
    ∃ es, (∀ e ∈ es, e.isResponse = false) ∧
      ((t.seq = .idle ∧ ∃ f, t.trace = s.trace ++ es ++ [.response f]) ∨
        (t.seq ≠ .idle ∧ t.trace = s.trace ++ es)) := by
  obtain ⟨op, phase, task, p, rfl, issued, rfl⟩ | ⟨op, ms, k, task, rfl, rfl⟩ |
    ⟨-, -, computes⟩ := does.kinds busy
  · obtain ⟨a, as, k, pos, result, -⟩ := State.issue_inversion busy issued
    rw [result]
    exact ⟨_, List.forall_mem_singleton.mpr (p.isResponse_event (p.outcome a)),
      .inr ⟨Seq.noConfusion, rfl⟩⟩
  · exact ⟨[.sleep ms], List.forall_mem_singleton.mpr rfl, .inr ⟨Seq.noConfusion, rfl⟩⟩
  · cases computes.outputs with
    | nothing pos busy trace =>
      exact ⟨[], nofun, .inr ⟨by rw [busy]; exact Seq.noConfusion, by rw [trace, List.append_nil]⟩⟩
    | progress written total pos busy trace =>
      exact ⟨[.progress written total], List.forall_mem_singleton.mpr rfl,
        .inr ⟨by rw [busy]; exact Seq.noConfusion, trace⟩⟩
    | response kind sub handle flags value data code idle trace =>
      exact ⟨[], nofun, .inl ⟨idle, _, by rw [trace, List.append_nil]⟩⟩

end

/-- Settles O55: an accepted command adds nothing, an illegal opcode its response; the steps of a
BUSY block are those above. -/
theorem oneResponsePerCommand : Obligations.OneResponsePerCommand := by
  rintro s t (⟨i, idle, host, runs⟩ | ⟨notIdle, released, h⟩)
  · by_cases illegal : ∃ op, i = .illegalHostOpcode op
    · obtain ⟨op, rfl⟩ := illegal
      rw [exec_illegal_of_idle op idle] at runs
      cases runs
      exact ⟨[], nofun, .inl ⟨rfl, _, by rw [List.append_nil]; rfl⟩⟩
    · rw [exec_of_idle host (not_exists.mp illegal) idle] at runs
      cases runs
      exact ⟨[], nofun, .inr ⟨Seq.noConfusion, (List.append_nil _).symm⟩⟩
  · obtain idle | ⟨c, pos, busy⟩ := s.idle_or_busy
    · exact absurd idle notIdle
    · exact (busyStep_of_step released busy h).oneResponse busy

/-! ### The sequencer advances (R33) -/

theorem Task.Follows.opDone_ne {task task' : Task} (follows : task.Follows task')
    {bytes : List Byte} {pos : Pos} (at' : pos.task? = some task') :
    Pos.opDone bytes task ≠ pos := by
  rintro rfl
  exact follows.ne (Option.some.inj at')

section
variable {s t : State} {c : Instr} {pos : Pos}

theorem State.goto_seq_ne {u : State} (busy : u.seq = .busy c pos) {pos' : Pos} (ne : pos ≠ pos') :
    (u.goto pos').seq ≠ .busy c pos := by
  rw [u.goto_seq_busy busy]
  intro same
  cases same
  exact ne rfl

theorem writePosition_ne_start (addr : Word64) (data : List Byte) (id : Word16) (task : Task)
    (cs : List Chunk) : writePosition addr data id task cs ≠ .start := by
  cases cs <;> exact Pos.noConfusion

/-- A first line leaves the position `start`. -/
theorem State.Begins.seq_ne (does : s.Begins c t) (busy : s.seq = .busy c .start)
    (host : c.port = .host) (legal : ∀ op, c ≠ .illegalHostOpcode op) :
    t.seq ≠ .busy c .start := by
  cases does with
  | nothing c none =>
    obtain other | ⟨op, rfl⟩ := none
    · exact absurd host other
    · exact absurd rfl (legal op)
  | refuses c e => simp
  | writes addr data =>
    rw [State.startWrite_eq_goto]
    exact State.goto_seq_ne busy (writePosition_ne_start _ _ _ _ _).symm
  | reads c addr n task =>
    rw [State.startRead_eq_goto]
    exact State.goto_seq_ne busy (readPosition_ne_start _ _ _ _).symm
  | removes sel => exact State.goto_seq_ne busy Pos.noConfusion
  | closes h e =>
    exact State.goto_seq_ne (u := (s.setHandle h.toNat _).markSelStale e.sel) busy Pos.noConfusion
  | establishes | answersCrc | copies | drops | frees => exact Seq.noConfusion

/-- The pseudocode leaves the end of a register operation. -/
theorem State.Continues.seq_ne {bytes : List Byte} {task : Task} (does : s.Continues task t)
    (busy : s.seq = .busy c (.opDone bytes task)) : t.seq ≠ .busy c (.opDone bytes task) := by
  cases does with
  | refuses task e => simp
  | answers | allocates => exact Seq.noConfusion
  | reads task task' addr n follows =>
    rw [State.startRead_eq_goto]
    exact State.goto_seq_ne busy (follows.opDone_ne (readPosition_task ..))
  | writes task task' addr data follows =>
    rw [State.startWrite_eq_goto]
    exact State.goto_seq_ne busy (follows.opDone_ne (writePosition_task ..))
  | operates => exact State.goto_seq_ne busy Pos.noConfusion
  | marksStale => exact State.goto_seq_ne (u := s.markAllStale) busy Pos.noConfusion
  | progresses h data k ks =>
    exact State.goto_seq_ne (u := s.emit _) busy
      ((Task.Follows.writeExecuteNext h data k ks).opDone_ne rfl)

theorem RegOp.decode_ne_afterChunk {op op' : RegOp} {q payload : List Byte} {task : Task} :
    Pos.chunk op (.decode q) task ≠ op'.afterChunk payload task := by
  cases op' with
  | write _ _ _ rest _ _ =>
    cases rest with
    | nil => exact Pos.noConfusion
    | cons k ks => intro same; cases same
  | read _ _ rest _ =>
    cases rest with
    | nil => exact Pos.noConfusion
    | cons k ks => intro same; cases same

theorem State.Receives.seq_ne {op : RegOp} {q : List Byte} {task : Task} {cmd : Word16} {a : Ack}
    (does : s.Receives cmd a task op t) (busy : s.seq = .busy c (.chunk op (.decode q) task)) :
    t.seq ≠ .busy c (.chunk op (.decode q) task) := by
  cases does with
  | refuses op e => simp
  | expires op => simp
  | waits =>
    refine State.goto_seq_ne (u := s.received cmd a) busy fun same => ?_
    cases same
  | reads => exact State.goto_seq_ne (u := s.received cmd a) busy RegOp.decode_ne_afterChunk
  | writes =>
    exact State.goto_seq_ne (u := { s.received cmd a with reqId := nextId s.reqId }) busy
      RegOp.decode_ne_afterChunk

/-- No step of a host command that is no illegal opcode leaves the position as it was. -/
theorem BusyStep.seq_ne (does : BusyStep s c pos t) (busy : s.seq = .busy c pos)
    (host : c.port = .host) (legal : ∀ op, c ≠ .illegalHostOpcode op) : t.seq ≠ .busy c pos := by
  cases does with
  | begins => exact (State.firstLine_begins c).seq_ne busy host legal
  | continues bytes task => exact (State.continueTask_continues bytes task).seq_ne busy
  | raises e task => simp
  | receives op q task cmd a t packet outcome => exact outcome.seq_ne busy
  | refuses op q task => simp
  | operates v task =>
    rw [State.writeOperation_eq_startWrite, State.startWrite_eq_goto]
    refine State.goto_seq_ne busy fun same => ?_
    generalize chunks _ s.mwp = cs at same
    cases cs <;> cases same
  | sends op task =>
    rw [State.sendPacket_busy busy]
    intro same
    injection same with _ here
    injection here with _ phase
    cases phase
  | sleeps op ms k task =>
    intro same
    cases same
  | issues op phase task p issued =>
    obtain ⟨a, as, k, pos, result, -, outcome⟩ := State.issue_inversion busy issued
    rw [result]
    intro same
    cases same
    obtain ⟨e, -, raised, -⟩ | ⟨bytes, -, leads⟩ := outcome
    · cases raised
    · cases leads with
      | advances phase' next => exact next.ne rfl

end

/-- Settles O60: acceptance, and the three kinds of a step of a BUSY block. -/
theorem sequencerAdvances : Obligations.SequencerAdvances := by
  intro s
  refine ⟨fun i host legal idle => exec_of_idle host legal idle,
    fun c pos t released busy h => ?_⟩
  have does := busyStep_of_step released busy h
  have advances : c.port = .host → (∀ op, c ≠ .illegalHostOpcode op) → t.seq ≠ s.seq := by
    rw [busy]
    exact does.seq_ne busy
  obtain ⟨op, phase, task, p, rfl, issued, rfl⟩ | ⟨op, ms, k, task, rfl, rfl⟩ |
    ⟨noPrimitive, noSleep, computes⟩ := does.kinds busy
  case inl =>
    have pending : s.pending = some p := (s.pending_chunk busy).trans issued
    obtain ⟨a, as, k, pos, result, first, -⟩ := State.issue_inversion busy issued
    refine ⟨.inr ⟨pos, by rw [result]; rfl⟩, advances, fun p' pending' => ?_,
      fun op' ms k' task' here => ?_, fun none => ?_⟩
    · cases pending.symm.trans pending'
      rw [result]
      exact ⟨a, rfl, first⟩
    · cases here
      cases issued
    · cases pending.symm.trans none
  case inr.inl =>
    have noPrimitive : s.pending = none := s.pending_chunk busy
    refine ⟨.inr ⟨_, rfl⟩, advances, fun p pending => ?_, fun op' ms' k' task' here => ?_,
      fun _ noSleep => absurd rfl (noSleep op ms k task)⟩
    · cases noPrimitive.symm.trans pending
    · cases here
      rfl
  case inr.inr =>
    refine ⟨?_, advances, fun p pending => ?_,
      fun op ms k task here => absurd here (noSleep _ _ _ _), fun _ _ => ⟨computes.answers, ?_⟩⟩
    · cases computes.outputs with
      | nothing pos' busy' => exact .inr ⟨pos', busy'⟩
      | progress _ _ pos' busy' => exact .inr ⟨pos', busy'⟩
      | response _ _ _ _ _ _ _ idle => exact .inl idle
    · cases noPrimitive.symm.trans pending
    · cases computes.outputs with
      | nothing _ _ trace => exact .inl trace
      | progress _ _ _ _ trace => exact .inr ⟨_, trace, rfl⟩
      | response _ _ _ _ _ _ _ _ trace => exact .inr ⟨_, trace, rfl⟩

/-! ### The host's stream (R91, R205) -/

theorem hostIn_of_step {s t : State} {c : Instr} {pos : Pos} (released : s.resetLine = false)
    (busy : s.seq = .busy c pos) (h : step s = .next t) : t.hostIn = s.hostIn := by
  obtain ⟨op, phase, task, p, rfl, issued, rfl⟩ | ⟨op, ms, k, task, rfl, rfl⟩ |
    ⟨-, -, computes⟩ := (busyStep_of_step released busy h).kinds busy
  · obtain ⟨a, as, k, pos, result, -⟩ := State.issue_inversion busy issued
    rw [result]
    rfl
  · rfl
  · exact computes.hostIn

/-- A stream holds no complete frame where it has no header, or fewer data bytes than the header
asks for (R91). -/
theorem decodeHost_eq_error_iff (bytes : List Byte) (e : DecodeError) :
    decodeHost bytes = .error e ↔ e = .incomplete ∧
      bytes.length < 16 + hostDataLength (byteAt bytes 0) (rdbe32 bytes 12) := by
  unfold decodeHost
  have header : hdrSize = 16 := rfl
  by_cases short : bytes.length < hdrSize
  · rw [if_pos short]
    exact ⟨fun error => ⟨by cases error; rfl, by omega⟩, fun ⟨same, _⟩ => same ▸ rfl⟩
  rw [if_neg short]
  by_cases cut : bytes.length < hdrSize + hostDataLength (byteAt bytes 0) (rdbe32 bytes 12)
  · rw [if_pos cut]
    exact ⟨fun error => ⟨by cases error; rfl, cut⟩, fun ⟨same, _⟩ => same ▸ rfl⟩
  · rw [if_neg cut]
    exact ⟨nofun, fun ⟨_, frame⟩ => absurd frame cut⟩

theorem lt_hostDataLength_iff {op : Byte} {len : Word32} {n : Nat} :
    n < 16 + hostDataLength op len ↔ n < 16 ∨ op ∈ [0x02, 0x04, 0x13] ∧ n < 16 + len.toNat := by
  by_cases carries : op = 0x02 ∨ op = 0x04 ∨ op = 0x13
  · have mem : op ∈ [0x02, 0x04, 0x13] := by simpa using carries
    rw [hostDataLength_of_carries carries]
    simp only [mem, true_and]
    omega
  · have mem : op ∉ [0x02, 0x04, 0x13] := by simpa using carries
    rw [hostDataLength_of_not_carries carries]
    simp only [mem, false_and, or_false, Nat.add_zero]

/-- Settles O49: the commands held, the host's stream while BUSY, and where the frame decoder has
no frame. -/
theorem commandsHeldWhileBusy : Obligations.CommandsHeldWhileBusy := by
  intro s
  refine ⟨fun i c pos busy host other => exec_of_held host busy other,
    fun c pos t released busy h => hostIn_of_step released busy h, fun bytes e => ?incomplete,
    step_of_idle⟩
  case incomplete =>
    rw [decodeHost_eq_error_iff, lt_hostDataLength_iff]

end Sys2Proof.Machine
end

section
/-! PROOFS. Which element of the state which command writes: the link parameters (O50), the handle
table (O51), `REQ_ID` (O52) and `LINK_UP` (O53); what HANDLE_DROP's Close can end in (O42). -/

namespace Sys2Proof.Machine

/-! ### The link parameters (R22 to R24) -/

/-- The parameters and what LINK_INIT writes of the link. -/
def State.link (s : State) : Config × BitVec 11 × Word16 × Word16 × Word16 :=
  (s.cfg, s.mps, s.aHs, s.aBuf, s.aLen)

section
variable {s t : State} {c : Instr} {pos : Pos}

theorem State.link_eq_iff :
    t.link = s.link ↔
      t.cfg = s.cfg ∧ t.mps = s.mps ∧ t.aHs = s.aHs ∧ t.aBuf = s.aBuf ∧ t.aLen = s.aLen := by
  simp [State.link]

@[simp] theorem State.link_goto (s : State) (pos : Pos) : (s.goto pos).link = s.link := by
  simp [State.link]

@[simp] theorem State.link_raiseErr (s : State) (e : Err) : (s.raiseErr e).link = s.link := by
  simp [State.link]

/-- The link as it was, or a LINK_INIT, which leaves the parameters. -/
def State.KeepsLink (s : State) (sets : Prop) (t : State) : Prop :=
  t.link = s.link ∨ sets ∧ t.cfg = s.cfg

theorem State.KeepsLink.stay {sets : Prop} (keeps : s.KeepsLink sets t) :
    t.cfg = s.cfg ∧ (¬ sets →
      t.mps = s.mps ∧ t.aHs = s.aHs ∧ t.aBuf = s.aBuf ∧ t.aLen = s.aLen) := by
  obtain same | ⟨sets, cfg⟩ := keeps
  · obtain ⟨cfg, others⟩ := State.link_eq_iff.mp same
    exact ⟨cfg, fun _ => others⟩
  · exact ⟨cfg, fun other => absurd sets other⟩

theorem State.Begins.keepsLink (does : s.Begins c t) :
    s.KeepsLink (∃ cap hs buf lenreg, c = .linkInit cap hs buf lenreg) t := by
  cases does with
  | establishes cap hs buf lenreg => exact .inr ⟨⟨cap, hs, buf, lenreg, rfl⟩, rfl⟩
  | nothing => exact .inl rfl
  | refuses | writes | reads | removes => exact .inl (by simp)
  | answersCrc | copies | drops | frees => exact .inl rfl
  | closes h e =>
    rw [State.startOperation_eq_goto]
    exact .inl (State.link_goto _ _)

theorem State.Continues.link {task : Task} (does : s.Continues task t) : t.link = s.link := by
  cases does with
  | refuses | reads | writes | operates => simp
  | answers | allocates => rfl
  | marksStale =>
    rw [State.startOperation_eq_goto]
    exact State.link_goto _ _
  | progresses => exact State.link_goto _ _

theorem State.Receives.link {op : RegOp} {task : Task} {cmd : Word16} {a : Ack}
    (does : s.Receives cmd a task op t) : t.link = s.link := by
  cases does with
  | refuses | expires => exact State.link_raiseErr _ _
  | waits | reads | writes => exact State.link_goto _ _

theorem State.link_sendPacket (s : State) (packet : List Byte) (op : RegOp) (task : Task) :
    (s.sendPacket packet op task).link = s.link := State.link_goto _ _

theorem State.link_writeOperation (s : State) (v : Word64) (task : Task) :
    (s.writeOperation v task).link = s.link := by
  simp

theorem Execs.keepsLink (does : Execs c s t) :
    s.KeepsLink (∃ cap hs buf lenreg, c = .linkInit cap hs buf lenreg) t := by
  cases does with
  | begins => exact (State.firstLine_begins c).keepsLink
  | unchanged | accepts | answersIllegal => exact .inl rfl
  | sends => exact .inl (State.link_sendPacket ..)
  | receives position outcome => exact .inl outcome.link
  | operates => exact .inl (State.link_writeOperation ..)

theorem IdleStep.link (does : IdleStep s t) : t.link = s.link := by
  cases does <;> rfl

theorem BusyStep.keepsLink (does : BusyStep s c pos t) (busy : s.seq = .busy c pos) :
    s.KeepsLink (∃ cap hs buf lenreg, s.seq = .busy (.linkInit cap hs buf lenreg) .start) t := by
  cases does with
  | begins =>
    refine (State.firstLine_begins c).keepsLink.imp_right fun ⟨⟨cap, hs, buf, lenreg, same⟩, cfg⟩ =>
      ⟨⟨cap, hs, buf, lenreg, ?_⟩, cfg⟩
    rw [busy, same]
  | continues bytes task => exact .inl (State.continueTask_continues bytes task).link
  | receives op q task cmd a t packet outcome => exact .inl outcome.link
  | sleeps => exact .inl rfl
  | operates => exact .inl (State.link_writeOperation ..)
  | sends => exact .inl (State.link_sendPacket ..)
  | refuses | raises => exact .inl (State.link_raiseErr _ _)
  | issues op phase task p issued =>
    obtain ⟨a, as, k, pos, result, -⟩ := State.issue_inversion busy issued
    rw [result]
    exact .inl rfl

end

/-- Settles O50: only LINK_INIT's first line writes the link. -/
theorem linkParametersStay : Obligations.LinkParametersStay := by
  intro s t
  refine ⟨fun i answers => ?_, fun released h => ?_⟩
  · obtain ⟨cfg, stay⟩ := (execs_of_exec answers).keepsLink.stay
    exact ⟨cfg, fun other => stay (by simpa using other)⟩
  · have keeps :
        s.KeepsLink (∃ cap hs buf lenreg, s.seq = .busy (.linkInit cap hs buf lenreg) .start)
          t := by
      obtain idle | ⟨c, pos, busy⟩ := s.idle_or_busy
      · exact .inl (idleStep_of_step released idle h).link
      · exact (busyStep_of_step released busy h).keepsLink busy
    obtain ⟨cfg, stay⟩ := keeps.stay
    exact ⟨cfg, fun other => stay (by simpa using other)⟩

/-! ### The handle table, REQ_ID and LINK_UP past a command's first line -/

/-- What a step within a register operation of `task` may write: the table at FILE_OPEN's snapshots
only, `REQ_ID` in a write only, `LINK_UP` at a Timeout only. -/
structure State.Runs (s : State) (task : Task) (t : State) : Prop where
  handles : (∀ sel mode, task ≠ .openFirstStatus sel mode ∧ task ≠ .openSecondStatus sel mode) →
    t.handles = s.handles
  reqId : task.afterRead = true → t.reqId = s.reqId
  linkUp : t.linkUp = s.linkUp ∨
    (s.cfg.pollLimit ≠ none ∨ s.cfg.pendingLimit ≠ none) ∧ t.seq = .idle ∧
      (t.respKind = 4 ∨ task = .dropClose)

section
variable {s t : State} {c : Instr} {pos : Pos} {task : Task}

theorem State.Runs.of_eq (handles : t.handles = s.handles) (reqId : t.reqId = s.reqId)
    (linkUp : t.linkUp = s.linkUp) : s.Runs task t :=
  ⟨fun _ => handles, fun _ => reqId, .inl linkUp⟩

theorem State.goto_runs (s : State) (task : Task) (pos : Pos) : s.Runs task (s.goto pos) :=
  .of_eq (by simp) (by simp) (by simp)

/-- A raise takes the link down at a Timeout only, which is the kind of the response but where it is
swallowed. -/
theorem State.raiseErr_runs (busy : s.seq = .busy c pos) (at' : pos.task? = some task) {e : Err}
    (limited : isTimeout e = true → s.cfg.pollLimit ≠ none ∨ s.cfg.pendingLimit ≠ none) :
    s.Runs task (s.raiseErr e) := by
  refine ⟨fun _ => by simp, fun _ => by simp, ?_⟩
  cases timeout : isTimeout e with
  | false => exact .inl (by simp [timeout])
  | true =>
    refine .inr ⟨limited timeout, by simp, ?_⟩
    rw [isTimeout, decide_eq_true_iff] at timeout
    cases swallows : s.swallows with
    | true =>
      rw [s.swallows_busy busy, decide_eq_true_iff, at'] at swallows
      exact .inr (Option.some.inj swallows)
    | false =>
      rw [s.raiseErr_of_not_swallows swallows]
      exact .inl timeout

/-- A raise of no Timeout. -/
theorem State.refuses_runs (s : State) {e : Err} (notTimeout : isTimeout e = false) :
    s.Runs task (s.raiseErr e) :=
  .of_eq (by simp) (by simp) (by simp [notTimeout])

theorem State.Receives.runs {op : RegOp} {q : List Byte} {cmd : Word16} {a : Ack}
    (does : s.Receives cmd a task op t) (busy : s.seq = .busy c (.chunk op (.decode q) task))
    (fits : op.isRead = task.afterRead) : s.Runs task t := by
  cases does with
  | refuses op e notTimeout =>
    obtain ⟨handles, reqId, linkUp⟩ := (s.received cmd a).refuses_runs (task := task) notTimeout
    exact ⟨handles, reqId, linkUp⟩
  | expires op limited =>
    obtain ⟨handles, reqId, linkUp⟩ := State.raiseErr_runs (s := s.received cmd a) (task := task)
      (e := .pendingTimeout) busy rfl fun _ => .inr limited
    exact ⟨handles, reqId, linkUp⟩
  | waits | reads =>
    obtain ⟨handles, reqId, linkUp⟩ := (s.received cmd a).goto_runs task _
    exact ⟨handles, reqId, linkUp⟩
  | writes =>
    refine ⟨fun _ => by simp, fun afterRead => ?_, .inl (by simp)⟩
    cases fits.trans afterRead

theorem State.Continues.runs (does : s.Continues task t) : s.Runs task t := by
  cases does with
  | refuses task e notTimeout => exact s.refuses_runs notTimeout
  | answers => exact .of_eq rfl rfl rfl
  | reads | writes | operates => exact .of_eq (by simp) (by simp) (by simp)
  | allocates sel mode h =>
    exact ⟨fun other => absurd rfl (other sel mode).2, fun _ => rfl, .inl rfl⟩
  | marksStale sel mode =>
    exact ⟨fun other => absurd rfl (other sel mode).1, fun _ => by simp, .inl (by simp)⟩
  | progresses h data k ks =>
    obtain ⟨handles, reqId, linkUp⟩ :=
      (s.emit (.progress (k.off + k.size) data.length)).goto_runs (.writeExecute h data k ks)
        (.opDone [] (.writeNext h data ks))
    exact ⟨handles, reqId, linkUp⟩

theorem BusyStep.runs (does : BusyStep s c pos t) (busy : s.seq = .busy c pos)
    (at' : pos.task? = some task) (fits : s.posOk pos = true) : s.Runs task t := by
  cases does with
  | begins => cases at'
  | continues bytes task =>
    cases at'
    exact (State.continueTask_continues bytes task).runs
  | receives op q task cmd a t packet outcome =>
    cases at'
    exact outcome.runs busy (by simpa [State.posOk] using fits)
  | sleeps => exact .of_eq rfl rfl rfl
  | operates | sends => exact .of_eq (by simp) (by simp) (by simp)
  | refuses op q task => exact .of_eq (by simp) (by simp) (by simp [isTimeout, errCode])
  | raises e task =>
    refine State.raiseErr_runs busy at' fun timeout => .inl ?_
    cases e with
    | pollTimeout => simpa [State.posOk, State.primitiveErr, Option.isSome_iff_ne_none] using fits
    | writeFailed | readFailed | responseTooLong => cases timeout
    | _ => cases fits
  | issues op phase task p issued =>
    obtain ⟨a, as, k, pos, result, -⟩ := State.issue_inversion busy issued
    rw [result]
    exact .of_eq rfl rfl rfl

theorem State.Begins.handles (does : s.Begins c t) (notDup : ∀ h, c ≠ .handleDup h)
    (notDrop : ∀ h, c ≠ .handleDrop h) : t.handles = s.handles := by
  cases does with
  | copies h => exact absurd rfl (notDup h)
  | drops h | frees h | closes h => exact absurd rfl (notDrop h)
  | _ => simp

theorem State.Begins.linkUp (does : s.Begins c t) (up : s.linkUp = true) : t.linkUp = true := by
  cases does with
  | establishes => rfl
  | refuses c e notTimeout => simp [notTimeout, up]
  | _ => simp [up]

theorem Pos.start_or_task (pos : Pos) : pos = .start ∨ ∃ task, pos.task? = some task := by
  cases pos with
  | start => exact .inl rfl
  | _ => exact .inr ⟨_, rfl⟩

theorem firstLine_of_start (released : s.resetLine = false) (accepted : s.seq = .busy c .start)
    (h : step s = .next t) : s.Begins c t := by
  rw [step_start (State.running_of_step released h) accepted] at h
  cases h
  exact State.firstLine_begins c

/-- A step past a command's first line, under the invariant. -/
theorem Inv.runs (inv : Inv s) (released : s.resetLine = false) (busy : s.seq = .busy c pos)
    (at' : pos.task? = some task) (h : step s = .next t) :
    task.belongsTo c = true ∧ s.Runs task t := by
  obtain ⟨inTask, fits⟩ := inv.inTask busy at'
  exact ⟨inTask.belongs, (busyStep_of_step released busy h).runs busy at' fits⟩

end

/-- Settles O51: past the first line the command's task is none of FILE_OPEN's. -/
theorem handleTableWriters : Obligations.HandleTableWriters := by
  intro s t inv released h notOpen notDup notDrop
  obtain idle | ⟨c, pos, busy⟩ := s.idle_or_busy
  · cases idleStep_of_step released idle h <;> rfl
  obtain rfl | ⟨task, at'⟩ := pos.start_or_task
  · refine (firstLine_of_start released busy h).handles (fun x same => notDup .start x ?_)
      fun x same => notDrop .start x ?_
    all_goals rw [busy, same]
  · obtain ⟨belongs, runs⟩ := inv.runs released busy at' h
    refine runs.handles fun sel mode => ⟨?_, ?_⟩
    all_goals
      rintro rfl
      cases c with
      | fileOpen sel' mode' => exact notOpen pos sel' mode' busy
      | _ => cases belongs

/-- Settles O52: every register operation of the two commands is a read. -/
theorem readsKeepRequestId : Obligations.ReadsKeepRequestId := by
  intro s t i pos inv released busy isRead h
  obtain rfl | ⟨task, at'⟩ := pos.start_or_task
  · have begins := firstLine_of_start released busy h
    obtain ⟨addr, len, rfl⟩ | ⟨x, rfl⟩ := isRead
    all_goals cases begins <;> simp
  · obtain ⟨belongs, runs⟩ := inv.runs released busy at' h
    refine runs.reqId ?_
    obtain ⟨addr, len, rfl⟩ | ⟨x, rfl⟩ := isRead
    · cases task with
      | readReg => rfl
      | _ => cases belongs
    · cases task with
      | length => rfl
      | _ => cases belongs

/-- Settles O53: the outcomes of a step, under the invariant, that write `LINK_UP`. -/
theorem linkFallsOnlyAtTimeout : Obligations.LinkFallsOnlyAtTimeout := by
  intro s t inv released h up
  have stays (same : t.linkUp = true) :
      (s.cfg.pollLimit = none → s.cfg.pendingLimit = none → t.linkUp = true) ∧
      (t.linkUp = false → t.seq = .idle ∧
        (t.respKind = 4 ∨ ∃ c pos, s.seq = .busy c pos ∧ pos.task? = some .dropClose)) :=
    ⟨fun _ _ => same, fun fallen => Bool.noConfusion (same.symm.trans fallen)⟩
  obtain idle | ⟨c, pos, busy⟩ := s.idle_or_busy
  · refine stays ?_
    cases idleStep_of_step released idle h <;> exact up
  obtain rfl | ⟨task, at'⟩ := pos.start_or_task
  · exact stays ((firstLine_of_start released busy h).linkUp up)
  · obtain same | ⟨limited, idle, kind⟩ := (inv.runs released busy at' h).2.linkUp
    · exact stays (same.trans up)
    · refine ⟨fun noPoll noPending => ?_, fun _ => ⟨idle, kind.imp_right ?_⟩⟩
      · exact limited.elim (absurd noPoll) (absurd noPending)
      · rintro rfl
        exact ⟨c, pos, busy, at'⟩

/-! ### HANDLE_DROP's Close (R170, R195) -/

/-- HANDLE_DROP ended with OK, or is within its Close. -/
def State.closing (c : Instr) (t : State) : Prop :=
  (t.seq = .idle ∧ t.respKind = 0 ∧ t.respSub = 0) ∨
    ∃ pos, t.seq = .busy c pos ∧ pos.task? = some .dropClose

section
variable {s t : State} {c : Instr} {pos : Pos} {task : Task}

theorem State.goto_closing (busy : s.seq = .busy c pos) {pos' : Pos}
    (at' : pos'.task? = some .dropClose) : (s.goto pos').closing c :=
  .inr ⟨pos', s.goto_seq_busy busy pos', at'⟩

theorem State.raiseErr_closing (busy : s.seq = .busy c pos) (at' : pos.task? = some .dropClose)
    (e : Err) : (s.raiseErr e).closing c := by
  rw [s.raiseErr_of_swallows (by simp [s.swallows_busy busy, at'])]
  exact .inl ⟨rfl, rfl, rfl⟩

theorem State.Receives.closing {op : RegOp} {q : List Byte} {cmd : Word16} {a : Ack}
    (does : s.Receives cmd a .dropClose op t)
    (busy : s.seq = .busy c (.chunk op (.decode q) .dropClose)) : t.closing c := by
  cases does with
  | refuses op e => exact State.raiseErr_closing (s := s.received cmd a) busy rfl e
  | expires op => exact State.raiseErr_closing (s := s.received cmd a) busy rfl _
  | waits => exact State.goto_closing (s := s.received cmd a) busy rfl
  | reads =>
    exact State.goto_closing (s := s.received cmd a) busy (RegOp.afterChunk_task ..)
  | writes =>
    exact State.goto_closing (s := { s.received cmd a with reqId := nextId s.reqId }) busy
      (RegOp.afterChunk_task ..)

theorem BusyStep.closing (does : BusyStep s c pos t) (busy : s.seq = .busy c pos)
    (at' : pos.task? = some .dropClose) : t.closing c := by
  cases does with
  | begins => cases at'
  | continues bytes task =>
    cases at'
    exact .inl ⟨rfl, rfl, rfl⟩
  | receives op q task cmd a t packet outcome =>
    cases at'
    exact outcome.closing busy
  | sleeps op ms k task => exact .inr ⟨_, rfl, at'⟩
  | operates v task =>
    rw [State.writeOperation_eq_startWrite, State.startWrite_eq_goto]
    exact State.goto_closing busy ((writePosition_task ..).trans at')
  | sends op task =>
    rw [State.sendPacket_busy busy]
    exact .inr ⟨_, rfl, at'⟩
  | refuses op q task => exact State.raiseErr_closing (s := { s with rxBuf := q }) busy at' _
  | raises e task => exact State.raiseErr_closing busy at' e
  | issues op phase task p issued =>
    obtain ⟨a, as, k, pos, result, -, outcome⟩ := State.issue_inversion busy issued
    rw [result]
    obtain ⟨e, -, rfl, -⟩ | ⟨bytes, -, leads⟩ := outcome
    · exact .inr ⟨_, rfl, at'⟩
    · cases leads <;> exact .inr ⟨_, rfl, at'⟩

/-- The drop of a live handle ends with OK or goes on with the Close. -/
theorem State.handleDrop_closing {h : Byte} {e : Handle} (live : s.liveHandle h = some e)
    (busy : s.seq = .busy c pos) : (s.handleDrop h).closing c := by
  simp only [State.handleDrop, live, State.lastDrop]
  split
  · split
    · exact State.goto_closing
        (s := (s.setHandle h.toNat { e with refcnt := 0, valid := false }).markSelStale e.sel)
        busy rfl
    · exact .inl ⟨rfl, rfl, rfl⟩
  · exact .inl ⟨rfl, rfl, rfl⟩

end

/-- Settles O42: the first line of a live handle's drop, then every step within the Close. -/
theorem handleDropEndsOk : Obligations.HandleDropEndsOk := by
  intro s t h
  refine ⟨fun ⟨e, inside, found, valid⟩ accepted answers => ?_,
    fun c pos released busy at' stepped =>
      (busyStep_of_step released busy stepped).closing busy at'⟩
  rw [exec_of_start accepted] at answers
  cases answers
  exact State.handleDrop_closing (State.liveHandle_eq_some_iff.mpr ⟨inside, found, valid⟩) accepted

end Sys2Proof.Machine
end

section
/-! PROOFS. The handshake step by step: what DECODE refuses (O6, O11, O28), SEND and RECEIVE on a
prompt channel (O16, O17), a poll below and at its limit (O18, O20), the length read (O21) and
failed primitives (O22). -/

namespace Sys2Proof.Machine

/-! ### DECODE (R105, R113) -/

section
variable {s t : State} {c : Instr} {op : RegOp} {task : Task} {q : List Byte} {cmd : Word16}
  {a : Ack}

/-- Settles O6: such a byte string does not parse. -/
theorem badFrameLengthRaised : Obligations.BadFrameLengthRaised := by
  intro s c op task q running position bad
  rw [step_refuseFrame running position (parsePacket_eq_none_iff.mpr bad),
    State.refuseFrame_eq_raiseErr,
    State.raiseErr_eq_aborted (s := { s with rxBuf := q }) position rfl _ rfl]
  rfl

/-- Whatever comes of a received packet, the CRC checker has run (R105). -/
theorem State.Receives.checked (does : s.Receives cmd a task op t) :
    t.cmdCrcBad = (s.received cmd a).cmdCrcBad ∧ t.crcAcc = receivedCrc cmd a ∧
      t.rxBuf = packetBytes cmd a := by
  cases does <;> simp [State.received]

/-- A mismatch with enforcement is refused whatever the packet's command id. -/
theorem exec_ackInstr_of_crcRaises
    (position : s.seq = .busy c (.chunk op (.decode q) task)) (raises : s.crcRaises cmd a = true) :
    exec (ackInstr cmd a) s = .next ((s.received cmd a).raiseErr .crcMismatch) := by
  unfold ackInstr
  split
  case isTrue read =>
    subst read
    rw [exec_readMemAck, atDecode_of_decode position]
    simp only [State.onReadMemAck, raises, if_true]
  split
  case isTrue write =>
    subst write
    rw [exec_writeMemAck, atDecode_of_decode position]
    simp only [State.onWriteMemAck, raises, if_true]
  split
  case isTrue pending =>
    subst pending
    rw [exec_pendingAck, execPendingAck, atDecode_of_decode position]
    simp only [State.onPendingAck, raises, if_true]
  case isFalse =>
    rw [exec_undefinedCommandId, atDecode_of_decode position, State.onOtherPacket, if_pos raises]

/-- The bytes under a packet's CRC are those from offset 6 on (R105). -/
theorem slice_packetBytes
    (whole : (packetBytes cmd a).length = 16 + (rdbe16 (packetBytes cmd a) 12).toNat) :
    slice (packetBytes cmd a) 6 (10 + (rdbe16 (packetBytes cmd a) 12).toNat) =
      coveredBytes cmd a := by
  have header : (enc .le 2 a.preamble.toNat ++ be32 a.crc).length = 6 := by simp [be32]
  rw [slice, List.take_of_length_le (by rw [List.length_drop]; omega), packetBytes,
    ← header, List.drop_left]

end

/-- Settles O11: the packet parses, and whatever it is, the CRC checker has run over
`coveredBytes`. -/
theorem receivedCrcCheck : Obligations.ReceivedCrcCheck := by
  intro s c op task q running position header whole crc
  cases packet : parsePacket q with
  | none =>
    rcases parsePacket_eq_none_iff.mp packet with short | other
    · exact absurd header (Nat.not_le_of_lt short)
    · exact absurd whole other
  | some fields =>
    obtain ⟨cmd, a⟩ := fields
    obtain ⟨rfl, -⟩ := eq_packetBytes_of_parsePacket packet
    have covered : crc = receivedCrc cmd a := congrArg crc32jam (slice_packetBytes whole)
    have field : rdbe32 (packetBytes cmd a) 2 = a.crc := crc_packetBytes ..
    obtain ⟨t, answers, outcome⟩ := exec_ackInstr position cmd a
    have stepped := step_receive running position packet
    obtain ⟨bad, acc, buf⟩ := outcome.checked
    rw [covered, field, stepped]
    refine ⟨fun differs enforced => ?_, fun differs lenient => ⟨t, answers, ?_, acc, buf⟩,
      fun agrees => ⟨t, answers, ?_, acc, buf⟩⟩
    · have raises : s.crcRaises cmd a = true := by
        simp [State.crcRaises, enforced, crcDiffers, differs]
      rw [exec_ackInstr_of_crcRaises position raises,
        State.raiseErr_eq_aborted (s := s.received cmd a) position rfl _ rfl]
      have recorded : (s.cmdCrcBad || crcDiffers cmd a) = true := by simp [crcDiffers, differs]
      rw [State.received, recorded]
      rfl
    · rw [bad]
      simp [State.received, crcDiffers, differs]
    · rw [bad]
      simp [State.received, crcDiffers, agrees]

/-- Settles O28: the packet decodes to the undefined-commandId instruction. -/
theorem undefinedCommandIdRefused : Obligations.UndefinedCommandIdRefused := by
  rintro s c op q task cmd a running position notRead notWrite notPending fits rfl accepted
  have undefined : cmd ∉ ackCommandIds :=
    List.not_mem_cons_of_ne_of_not_mem notRead (List.not_mem_cons_of_ne_of_not_mem notWrite
      (List.not_mem_cons_of_ne_of_not_mem notPending List.not_mem_nil))
  have stepped := step_receive running position (parsePacket_packetBytes (cmd := cmd) fits)
  rw [ackInstr_undefined undefined] at stepped
  exact ⟨stepped, exec_undefinedCommandId_of_accepted position accepted⟩

/-! ### SEND and RECEIVE on a prompt channel (R125, R130) -/

section
variable {s : State} {c : Instr} {op : RegOp} {task : Task}

/-- `s` past the staging of a request: the block before the busy poll. -/
def State.staged (s : State) (c : Instr) (op : RegOp) (task : Task) (packet : List Byte) : State :=
  { s with
    txBuf := packet
    crcAcc := crc32jam (packet.drop 6)
    seq := .busy c (.chunk (op.arm s.reqId) (.busyPoll 0) task) }

theorem State.reaches_sent (running : s.running) (packet : List Byte) {rest : List Answer}
    (answers : s.answers = sendAnswers s.cfg ++ rest) :
    (s.staged c op task packet).reaches ((s.staged c op task packet).inPhase c (op.arm s.reqId)
      (.readyPoll 0) task (s.sendEvents packet) rest) := by
  obtain ⟨⟨busyClear, txConsumed, -⟩, -⟩ := State.widths running
  have sends := State.reaches_send (s := s.staged c op task packet) (cmd := c)
    (op := op.arm s.reqId) (task := task) (k := 0) running busyClear txConsumed [] rest
  have here : (s.staged c op task packet).inPhase c (op.arm s.reqId) (.busyPoll 0) task []
      (sendAnswers (s.staged c op task packet).cfg ++ rest) = s.staged c op task packet := by
    rw [show sendAnswers (s.staged c op task packet).cfg ++ rest = s.answers from answers.symm]
    exact State.inPhase_self rfl
  rwa [here, List.nil_append] at sends

end

/-- Settles O16: both requests stage their packet; SEND's answers do the rest. -/
theorem requestsAreSent : Obligations.RequestsAreSent := by
  intro s c op task position armed staged sends
  have arms : armed = op.arm s.reqId := by cases op <;> rfl
  have stages (packet : List Byte) : staged packet = s.staged c op task packet := by
    simp only [staged, arms, State.staged]
  have sent {i : Instr} {packet : List Byte}
      (request : exec i s = .next (s.sendPacket packet op task)) : sends i packet := by
    simp only [sends, stages, arms]
    exact ⟨request.trans (by rw [State.sendPacket_busy position]; rfl),
      fun rest running answers => State.reaches_sent running packet answers⟩
  exact ⟨fun addr n => sent (exec_readMemRequest_of_encode position addr n),
    fun addr data => sent (exec_writeMemRequest_of_encode position addr data)⟩

/-- Settles O17: the declared length fits the length register. -/
theorem packetsAreReceived : Obligations.PacketsAreReceived := by
  intro s c op task k q rest running position small answers
  obtain ⟨⟨-, -, rxReady, rxIdle⟩, lenMin⟩ := State.widths running
  have short : q.length < 256 ^ s.cfg.lenWidth :=
    calc q.length
      _ ≤ s.mps.toNat := small
      _ < 2 ^ 11 := s.mps.isLt
      _ ≤ 256 ^ 2 := by norm_num
      _ ≤ 256 ^ s.cfg.lenWidth := Nat.pow_le_pow_right (by norm_num) lenMin
  have receives := State.reaches_receive (s := s) (cmd := c) (op := op) (task := task) (k := k)
    running rxReady rxIdle short small [] rest
  rwa [← answers, State.inPhase_self position] at receives

/-! ### A poll (R129) -/

section
variable {s : State} {c : Instr} {op : RegOp} {task : Task} {phase again next : Phase} {k : Nat}
  {addr : Word16} {target v : List Byte} {es : List Event} {as rest : List Answer}

/-- In `phase` the block polls the flag at `addr` for `target`, after `k` mismatches: a match leads
to `next`, a mismatch below the limit to `again`. -/
structure State.Polls (s : State) (op : RegOp) (task : Task) (phase : Phase) (k : Nat)
    (addr : Word16) (target : List Byte) (again next : Phase) : Prop where
  issues : s.phasePrimitive phase = some (.memRead addr s.cfg.hsWidth)
  wide : target.length = s.cfg.hsWidth
  advances : ∀ (t : State) (v : List Byte), t.cfg = s.cfg → t.advance op phase task v =
    if v = target then t.goto (.chunk op next task) else t.pollMiss (k + 1) op again task

section
variable (running : s.running) (k : Nat)
include running

theorem State.polls_busy : s.Polls op task (.busyPoll k) k (s.aHs + s.cfg.oBusy) s.cfg.vBusyClear
    (.busyPoll (k + 1)) .stage where
  issues := rfl
  wide := by
    obtain ⟨⟨busyClear, -, -, -⟩, -⟩ := State.widths running
    exact busyClear
  advances t v cfg := by rw [State.advance, cfg]

theorem State.polls_consumed : s.Polls op task (.consumedPoll k) k (s.aHs + s.cfg.oTx)
    s.cfg.vTxConsumed (.consumedPoll (k + 1)) .txClear where
  issues := rfl
  wide := by
    obtain ⟨⟨-, txConsumed, -, -⟩, -⟩ := State.widths running
    exact txConsumed
  advances t v cfg := by rw [State.advance, cfg]

theorem State.polls_ready : s.Polls op task (.readyPoll k) k (s.aHs + s.cfg.oRx) s.cfg.vRxReady
    (readyPollAgain s.cfg.rxPollDelay (k + 1)) .readLength where
  issues := rfl
  wide := by
    obtain ⟨⟨-, -, rxReady, -⟩, -⟩ := State.widths running
    exact rxReady
  advances t v cfg := by rw [State.advance, cfg]

theorem State.polls_idle (q : List Byte) : s.Polls op task (.idlePoll q k) k (s.aHs + s.cfg.oRx)
    s.cfg.vRxIdle (.idlePoll q (k + 1)) (.rxClear q) where
  issues := rfl
  wide := by
    obtain ⟨⟨-, -, -, rxIdle⟩, -⟩ := State.widths running
    exact rxIdle
  advances t v cfg := by rw [State.advance, cfg]

end

/-- The trace entry of a read of a flag at `addr` that returns `v`. -/
def State.flagRead (s : State) (addr : Word16) (v : List Byte) : Event :=
  .memRead addr s.cfg.hsWidth (some v)

/-- A read of the flag that returns as many bytes as the flag has. -/
theorem State.Polls.step_read (polls : s.Polls op task phase k addr target again next)
    (running : s.running) (wide : v.length = s.cfg.hsWidth) :
    step (s.inPhase c op phase task es (.done v :: as)) =
      .next (if v = target then s.inPhase c op next task (es ++ [s.flagRead addr v]) as
        else (s.inPhase c op phase task (es ++ [s.flagRead addr v]) as).pollMiss (k + 1) op again
          task) :=
  (step_completed running polls.issues ((Primitive.outcome_read ..).trans (if_pos wide))).trans
    (congrArg Host.Outcome.next (polls.advances (s.inPhase ..) v rfl))

theorem State.Polls.step_match (polls : s.Polls op task phase k addr target again next)
    (running : s.running) :
    step (s.inPhase c op phase task es (.done target :: as)) =
      .next (s.inPhase c op next task (es ++ [s.flagRead addr target]) as) := by
  rw [polls.step_read running polls.wide, if_pos rfl]

theorem State.Polls.step_miss (polls : s.Polls op task phase k addr target again next)
    (running : s.running) (wide : v.length = s.cfg.hsWidth) (differs : v ≠ target)
    (below : ¬ limitReached s.cfg.pollLimit (k + 1) = true) :
    step (s.inPhase c op phase task es (.done v :: as)) =
      .next (s.inPhase c op again task (es ++ [s.flagRead addr v]) as) := by
  rw [polls.step_read running wide, if_neg differs, State.pollMiss, State.inPhase_cfg,
    if_neg below, State.inPhase_goto]

/-- A mismatch at the limit, and the raise after it (R129, R197). -/
theorem State.Polls.steps_expire (polls : s.Polls op task phase k addr target again next)
    (running : s.running) (position : s.seq = .busy c (.chunk op phase task))
    (wide : v.length = s.cfg.hsWidth) (differs : v ≠ target)
    (reached : limitReached s.cfg.pollLimit (k + 1) = true)
    (answers : s.answers = .done v :: rest) :
    steps 2 s = .next (({ s with
      linkUp := false
      trace := s.trace ++ [s.flagRead addr v]
      answers := rest } : State).aborted task 4 1) := by
  let read : State := s.inPhase c op phase task [s.flagRead addr v] rest
  let t : State := read.goto (.raised .pollTimeout task)
  have misses : step s = .next t := by
    have here := State.inPhase_self position
    rw [answers] at here
    rw [← here, polls.step_read running wide, if_neg differs, State.pollMiss, State.inPhase_cfg,
      if_pos reached]
    rfl
  have raises : step t = .next (t.raiseErr .pollTimeout) := step_raised running rfl
  rw [steps_succ misses, steps_succ raises,
    t.raiseErr_eq_aborted_of_isTimeout (pos := .raised .pollTimeout task) rfl rfl rfl]
  rfl

/-- Any number of mismatches below the limit, without a sleep between them. -/
theorem State.steps_misses {phase : Nat → Phase}
    (polls : ∀ k, s.Polls op task (phase k) k addr target (phase (k + 1)) next)
    (running : s.running) {vs : List (List Byte)}
    (misses : ∀ v ∈ vs, v.length = s.cfg.hsWidth ∧ v ≠ target)
    (below : ¬ limitReached s.cfg.pollLimit (k + vs.length) = true) :
    steps vs.length (s.inPhase c op (phase k) task es (vs.map .done ++ as)) =
      .next (s.inPhase c op (phase (k + vs.length)) task
        (es ++ vs.map (s.flagRead addr)) as) := by
  induction vs generalizing k es with
  | nil => simp [steps]
  | cons v vs ih =>
    obtain ⟨⟨wide, differs⟩, others⟩ := List.forall_mem_cons.mp misses
    have count : k + (v :: vs).length = k + 1 + vs.length := by
      rw [List.length_cons]
      omega
    rw [count] at below ⊢
    have first : ¬ limitReached s.cfg.pollLimit (k + 1) = true :=
      not_limitReached_of_le (Nat.le_add_right _ _) below
    calc steps (vs.length + 1) (s.inPhase c op (phase k) task es
          (.done v :: (vs.map .done ++ as)))
      _ = steps vs.length _ := steps_succ ((polls k).step_miss running wide differs first)
      _ = _ := ih others below
      _ = _ := by rw [List.map_cons, List.append_assoc]; rfl

/-- The mismatches below the limit, and the match after them. -/
theorem State.steps_poll {phase : Nat → Phase}
    (polls : ∀ k, s.Polls op task (phase k) k addr target (phase (k + 1)) next)
    (running : s.running) {vs : List (List Byte)}
    (below : ¬ limitReached s.cfg.pollLimit (k + vs.length) = true)
    (wide : ∀ v ∈ vs, v.length = s.cfg.hsWidth)
    (position : s.seq = .busy c (.chunk op (phase k) task)) (differ : ∀ v ∈ vs, v ≠ target) :
    (s.answers = vs.map .done ++ rest → steps vs.length s =
      .next (s.inPhase c op (phase (k + vs.length)) task (vs.map (s.flagRead addr)) rest)) ∧
    (s.answers = vs.map .done ++ [.done target] ++ rest → steps (vs.length + 1) s =
      .next (s.inPhase c op next task ((vs ++ [target]).map (s.flagRead addr)) rest)) := by
  have here := State.inPhase_self position
  have misses : ∀ v ∈ vs, v.length = s.cfg.hsWidth ∧ v ≠ target :=
    fun v mem => ⟨wide v mem, differ v mem⟩
  refine ⟨fun answers => ?_, fun answers => ?_⟩
  · rw [answers] at here
    calc steps vs.length s
      _ = steps vs.length (s.inPhase c op (phase k) task [] (vs.map .done ++ rest)) := by rw [here]
      _ = _ := State.steps_misses polls running misses below
      _ = _ := by rw [List.nil_append]
  · rw [answers, List.append_assoc] at here
    calc steps (vs.length + 1) s
      _ = steps (vs.length + 1) (s.inPhase c op (phase k) task []
            (vs.map .done ++ .done target :: rest)) := by
        rw [← List.singleton_append, here]
      _ = steps 1 _ := steps_add (State.steps_misses polls running misses below)
      _ = .next (s.inPhase c op next task
            ([] ++ vs.map (s.flagRead addr) ++ [s.flagRead addr target]) rest) :=
        steps_succ ((polls _).step_match running)
      _ = _ := by rw [List.nil_append, List.map_append, List.map_singleton]

end

/-- Settles O18: the three polls without a sleep are instances of `State.steps_poll`. -/
theorem pollsWaitBelowLimit : Obligations.PollsWaitBelowLimit := by
  intro s c op task k q vs rest running limit wide
  have below := not_limitReached_iff.mpr limit
  exact ⟨State.steps_poll (State.polls_busy running) running below wide,
    State.steps_poll (State.polls_consumed running) running below wide,
    State.steps_poll (phase := .idlePoll q) (fun k => State.polls_idle running k q) running below
      wide⟩

theorem limitReached_of_le {limit : Option Nat} {k l : Nat} (limited : limit = some l)
    (le : l ≤ k) : limitReached limit k = true := by
  by_contra below
  obtain none | ⟨l', limited', lt⟩ := not_limitReached_iff.mp below
  · cases limited.symm.trans none
  · cases limited.symm.trans limited'
    omega

/-- Settles O20: the four polls are instances of `State.Polls.steps_expire`. -/
theorem pollLimitTimesOut : Obligations.PollLimitTimesOut := by
  intro s c op task k l q v rest running limited le wide answers
  have reached := limitReached_of_le limited le
  refine ⟨fun differs position => ?_, fun differs position => ?_, fun differs position => ?_,
    fun differs position => ?_⟩
  · exact (State.polls_busy running k).steps_expire running position wide differs reached answers
  · exact (State.polls_consumed running k).steps_expire running position wide differs reached
      answers
  · exact (State.polls_ready running k).steps_expire running position wide differs reached answers
  · exact (State.polls_idle running k q).steps_expire running position wide differs reached answers

/-! ### The length read (R132, R133) -/

/-- Settles O21: the length read decodes to the length written, which decides the branch. -/
theorem responseLengthChecked : Obligations.ResponseLengthChecked := by
  intro s c op task m rest running position fits answers read
  have decodes : dec s.cfg.lenOrder (enc s.cfg.lenOrder s.cfg.lenWidth m) = m := by
    rw [dec_enc, Nat.mod_eq_of_lt fits]
  let t : State := s.inPhase c op .readLength task [.memRead s.aLen s.cfg.lenWidth
    (some (enc s.cfg.lenOrder s.cfg.lenWidth m))] rest
  have reads : step s = .next (t.responseLength m op task) := by
    have here := State.inPhase_self position
    rw [answers] at here
    rw [← here, step_completed running rfl
      ((Primitive.outcome_read ..).trans (if_pos (length_enc ..))), State.advance,
      State.inPhase_cfg, decodes]
    rfl
  refine ⟨fun long => ?_, fun short => ?_⟩
  · let u : State := t.goto (.raised .responseTooLong task)
    have refused : t.responseLength m op task = u := by
      rw [State.responseLength]
      exact if_pos long
    rw [refused] at reads
    have raises : step u = .next (u.raiseErr .responseTooLong) := step_raised running rfl
    rw [steps_succ reads, steps_succ raises,
      u.raiseErr_eq_aborted (pos := .raised .responseTooLong task) rfl rfl _ rfl]
    rfl
  · rw [reads, State.responseLength]
    by_cases empty : m = 0
    · subst empty
      rfl
    · have fitsMps : ¬ t.mps.toNat < m := Nat.not_lt_of_le short
      rw [if_neg fitsMps, if_pos (Nat.pos_of_ne_zero empty), if_neg empty]
      rfl

/-! ### A failed primitive (R192, R199) -/

/-- A primitive that fails is the last of its command: the step after it raises the error. -/
theorem steps_failed {s : State} {c : Instr} {op : RegOp} {phase : Phase} {task : Task}
    {p : Primitive} {a : Answer} {e : Err} {rest : List Answer} (running : s.running)
    (position : s.seq = .busy c (.chunk op phase task)) (pending : s.pending = some p)
    (answers : s.answers = a :: rest) (fails : p.outcome a = .error e) :
    steps 2 s = .next (({ s with
      trace := s.trace ++ [p.event (.error e)], answers := rest } : State).aborted task
        (errCode e).1 (errCode e).2) := by
  let t : State := { s with
    seq := .busy c (.raised e task), trace := s.trace ++ [p.event (.error e)], answers := rest }
  have issued : s.phasePrimitive phase = some p := (s.pending_chunk position).symm.trans pending
  have issues : step s = .next t := by
    rw [step_primitive running position issued answers,
      State.feed_error (s := { s with answers := rest }) fails position]
  have raises : step t = .next (t.raiseErr e) := step_raised running rfl
  have notTimeout : isTimeout e = false := by
    obtain rfl | rfl := Primitive.outcome_error fails <;> rfl
  rw [steps_succ issues, steps_succ raises,
    t.raiseErr_eq_aborted (pos := .raised e task) rfl rfl _ notTimeout]
  rfl

/-- Settles O22: both kinds of primitive fail as `steps_failed` says. -/
theorem failedPrimitiveRaises : Obligations.FailedPrimitiveRaises := by
  intro s c op phase task rest running position
  refine ⟨fun addr bytes pending answers => steps_failed running position pending answers rfl,
    fun addr n a pending answers bad => ?_⟩
  have fails : (Primitive.memRead addr n).outcome a = .error .readFailed := by
    obtain rfl | ⟨bytes, rfl, wrong⟩ := bad
    · rfl
    · exact (Primitive.outcome_read ..).trans (if_neg wrong)
  exact steps_failed running position pending answers fails

end Sys2Proof.Machine
end

section
/-! PROOFS. Register operations one after the other on a prompt channel: what they leave of the
state, that the handle table plays no part in them, and the rule by which a command's run is put
together from its actions. From it: WRITE_REG, READ_REG and EXEC (O23, O24, O29). -/

namespace Sys2Proof.Machine

/-! ### What an action leaves -/

section
variable (s : State) (hs : List Handle)

/-- `s` with another handle table. -/
def State.withHandles (s : State) (hs : List Handle) : State := { s with handles := hs }

theorem State.exchangedRead_withHandles (addr : Word64) (k : Chunk) (a : Ack) :
    (s.withHandles hs).exchangedRead addr k a = (s.exchangedRead addr k a).withHandles hs := by
  simp only [State.exchangedRead, State.withHandles, State.exchanged, State.sendEvents,
    State.receiveEvents]

theorem State.exchangedWrite_withHandles (addr : Word64) (data : List Byte) (k : Chunk) (a : Ack) :
    (s.withHandles hs).exchangedWrite addr data k a =
      (s.exchangedWrite addr data k a).withHandles hs := by
  simp only [State.exchangedWrite, State.withHandles, State.exchanged, State.sendEvents,
    State.receiveEvents]

/-- No register operation reads or writes the handle table. -/
theorem State.did_withHandles (x : Action) :
    (s.withHandles hs).did x = (s.did x).withHandles hs := by
  cases x with
  | write addr data acks =>
    simp only [State.did, State.wroteChunks_eq_foldl]
    exact List.foldl_hom (State.withHandles · hs)
      fun t x => t.exchangedWrite_withHandles hs addr data x.1 x.2
  | read addr n acks =>
    simp only [State.did, State.readChunks_eq_foldl]
    exact List.foldl_hom (State.withHandles · hs)
      fun t x => t.exchangedRead_withHandles hs addr x.1 x.2
  | progress written total => rfl

theorem State.did_handles (x : Action) : (s.did x).handles = s.handles := by
  have same : s.did x = (s.did x).withHandles s.handles := s.did_withHandles s.handles x
  rw [same]
  rfl

theorem State.did_mps (x : Action) : (s.did x).mps = s.mps := by
  cases x with
  | write addr data acks =>
    rw [State.did, State.wroteChunks_eq_foldl]
    exact List.foldlRecOn (motive := fun t : State => t.mps = s.mps) _ _ rfl
      fun t kept x _ => by simpa using kept
  | read addr n acks =>
    rw [State.did, State.readChunks_eq_foldl]
    exact List.foldlRecOn (motive := fun t : State => t.mps = s.mps) _ _ rfl
      fun t kept x _ => by simpa using kept
  | progress written total => rfl

theorem State.didAll_withHandles (xs : List Action) :
    (s.withHandles hs).didAll xs = (s.didAll xs).withHandles hs := by
  induction xs generalizing s with
  | nil => rfl
  | cons x xs ih => rw [State.didAll, State.did_withHandles, ih, State.didAll]

theorem State.actionAccepted_withHandles (id : Word16) (x : Action) :
    (s.withHandles hs).actionAccepted id x = s.actionAccepted id x := by
  cases x with
  | write addr data acks =>
    exact State.writesAccepted_congr (s := s) (t := s.withHandles hs) _ acks rfl rfl id
  | read addr n acks =>
    exact State.readsAccepted_congr (s := s) (t := s.withHandles hs) _ acks rfl rfl
  | progress written total => rfl

theorem State.allAccepted_withHandles (xs : List Action) :
    (s.withHandles hs).allAccepted xs = s.allAccepted xs := by
  induction xs generalizing s with
  | nil => rfl
  | cons x xs ih =>
    rw [State.allAccepted, State.did_withHandles, ih, State.actionAccepted_withHandles,
      State.allAccepted]
    rfl

variable (seq : Seq) (as : List Answer)

theorem State.didAll_moved (xs : List Action) :
    (s.moved seq as).didAll xs = (s.didAll xs).moved seq as := by
  induction xs generalizing s with
  | nil => rfl
  | cons x xs ih => rw [State.didAll, State.did_moved, ih, State.didAll]

theorem State.allAccepted_moved (xs : List Action) :
    (s.moved seq as).allAccepted xs = s.allAccepted xs := by
  induction xs generalizing s with
  | nil => rfl
  | cons x xs ih =>
    rw [State.allAccepted, State.did_moved, ih, State.actionAccepted_moved, State.allAccepted,
      State.moved_reqId]

end

/-! ### A command's run, action by action -/

/-- `s` stands at `pos` of the command `c`, and the channel plays the actions `xs` promptly, then
has `rest` left. -/
structure State.Script (s : State) (c : Instr) (pos : Pos) (xs : List Action) (rest : List Answer) :
    Prop where
  running : s.running
  mpsHigh : s.mps.toNat ≤ 1024
  busy : s.seq = .busy c pos
  plays : s.plays xs rest

/-- `t` has the parameters, the packet size and the handle table of `s`. -/
structure State.Keeps (s t : State) : Prop where
  cfg : t.cfg = s.cfg
  mps : t.mps = s.mps
  handles : t.handles = s.handles

/-- `s` after the actions, with no position: a response does not depend on where the command
ends. -/
def State.finished (s : State) (xs : List Action) (rest : List Answer) : State :=
  (s.didAll xs).moved .idle rest

section
variable {s t : State} {c : Instr} {pos pos' : Pos} {x : Action} {xs : List Action}
  {rest : List Answer} {acks : List Ack} {task : Task} {bytes : List Byte}

theorem State.Keeps.trans {u : State} (first : s.Keeps t) (second : t.Keeps u) : s.Keeps u :=
  ⟨second.cfg.trans first.cfg, second.mps.trans first.mps, second.handles.trans first.handles⟩

theorem State.Keeps.selOf (keeps : s.Keeps t) (h : Byte) : t.selOf h = s.selOf h := by
  rw [State.selOf, keeps.handles, State.selOf]

theorem State.Keeps.lf (keeps : s.Keeps t) : t.lf = s.lf := by
  rw [State.lf, State.mwp, keeps.mps, State.lf, State.mwp]

/-- The first action of the script: its acknowledgments are accepted, and its answers come first. -/
theorem State.Script.first (script : s.Script c pos (x :: xs) rest) :
    s.actionAccepted s.reqId x = true ∧
      s.answers = x.answers s.cfg ++ (answersOf s.cfg xs ++ rest) := by
  obtain ⟨accepted, answers⟩ := script.plays
  rw [State.allAccepted, Bool.and_eq_true] at accepted
  exact ⟨accepted.1, by simpa [answersOf] using answers⟩

/-- `s` past the first action of its script, at `pos`. -/
def State.past (s : State) (x : Action) (c : Instr) (pos : Pos) (xs : List Action)
    (rest : List Answer) : State :=
  (s.did x).moved (.busy c pos) (answersOf s.cfg xs ++ rest)

theorem State.keeps_past : s.Keeps (s.past x c pos xs rest) where
  cfg := (s.did_inputs x).1
  mps := s.did_mps x
  handles := s.did_handles x

/-- The script goes on past its first action. -/
theorem State.Script.past (script : s.Script c pos (x :: xs) rest) (pos' : Pos) :
    (s.past x c pos' xs rest).Script c pos' xs rest where
  running := State.running_did script.running x
  mpsHigh := by
    rw [State.keeps_past.mps]
    exact script.mpsHigh
  busy := rfl
  plays := by
    obtain ⟨accepted, -⟩ := script.plays
    rw [State.allAccepted, Bool.and_eq_true] at accepted
    refine ⟨(State.allAccepted_moved ..).trans accepted.2, ?_⟩
    rw [State.keeps_past.cfg]
    rfl

theorem State.finished_past :
    (s.past x c pos xs rest).finished xs rest = s.finished (x :: xs) rest := by
  rw [State.finished, State.past, State.didAll_moved, State.moved_moved]
  rfl

/-! The rule of each action: whatever the command's pseudocode makes of the state past the action
reaches, the start of the action reaches too. `F` is what the command ends with. -/

variable {F : State → State}

/-- The block before the pseudocode after the action. -/
theorem State.Script.reaches_opDone (script : s.Script c pos (x :: xs) rest) {u : State}
    (runs : u.reaches (s.past x c (.opDone bytes task) xs rest))
    (continues : ∀ t, t.Script c (.opDone bytes task) xs rest → s.Keeps t →
      (t.continueTask bytes task).reaches (F (t.finished xs rest))) :
    u.reaches (F (s.finished (x :: xs) rest)) := by
  have next := script.past (.opDone bytes task)
  refine State.reaches_trans runs (State.reaches_trans
    (State.reaches_step (step_opDone next.running next.busy)) ?_)
  rw [← State.finished_past (c := c) (pos := .opDone bytes task)]
  exact continues _ next State.keeps_past

theorem State.Script.read {addr : Word64} {n : Nat}
    (script : s.Script c pos (.read addr n acks :: xs) rest)
    (continues : ∀ t, t.Script c (.opDone (payloads acks) task) xs rest → s.Keeps t →
      (t.continueTask (payloads acks) task).reaches (F (t.finished xs rest))) :
    (s.startRead addr n task).reaches (F (s.finished (.read addr n acks :: xs) rest)) := by
  obtain ⟨accepted, answers⟩ := script.first
  exact script.reaches_opDone
    (State.reaches_startRead script.running script.mpsHigh script.busy accepted answers) continues

theorem State.Script.write {addr : Word64} {data : List Byte}
    (script : s.Script c pos (.write addr data acks :: xs) rest)
    (continues : ∀ t, t.Script c (.opDone [] task) xs rest → s.Keeps t →
      (t.continueTask [] task).reaches (F (t.finished xs rest))) :
    (s.startWrite addr data task).reaches (F (s.finished (.write addr data acks :: xs) rest)) := by
  obtain ⟨accepted, answers⟩ := script.first
  exact script.reaches_opDone
    (State.reaches_startWrite script.running script.mpsHigh script.busy accepted answers) continues

theorem State.Script.operation {k : Config} {op mode : Word16} {sel : Word32} (cfg : s.cfg = k)
    (script : s.Script c pos (execAction k op mode sel acks :: xs) rest)
    (device : op ∈ [k.opOpen, k.opClose, k.opRead, k.opWrite, k.opDelete])
    (continues : ∀ t, t.Script c (.opDone [] task) xs rest → s.Keeps t →
      (t.continueTask [] task).reaches (F (t.finished xs rest))) :
    (s.startOperation op mode sel task).reaches
      (F (s.finished (execAction k op mode sel acks :: xs) rest)) := by
  subst cfg
  let u : State := s.moved (.busy c (.operation (packOperation op mode sel) task)) s.answers
  obtain ⟨accepted, answers⟩ := script.first
  have runs := State.reaches_operation (s := u) script.running script.mpsHigh rfl device
    ((s.actionAccepted_moved ..).trans accepted) answers
  rw [State.did_moved, State.moved_moved] at runs
  rw [State.startOperation_busy script.busy]
  exact script.reaches_opDone runs continues

/-- A progress event is no register operation: the pseudocode goes on at once (R173). -/
theorem State.Script.progress {written total : Nat}
    (script : s.Script c pos (.progress written total :: xs) rest)
    (continues : ∀ t, t.Script c (.opDone [] task) xs rest → s.Keeps t →
      (t.continueTask [] task).reaches (F (t.finished xs rest))) :
    ((s.emit (.progress written total)).goto (.opDone [] task)).reaches
      (F (s.finished (.progress written total :: xs) rest)) := by
  have emitted : (s.emit (.progress written total)).goto (.opDone [] task) =
      s.past (.progress written total) c (.opDone [] task) xs rest := by
    obtain ⟨-, answers⟩ := script.first
    have here : s.answers = answersOf s.cfg xs ++ rest := answers
    rw [s.emit_goto script.busy, State.past, ← here]
    rfl
  rw [emitted]
  exact script.reaches_opDone State.reaches_refl continues

/-- The command ends. -/
theorem State.Script.responds (script : s.Script c pos [] rest) (kind sub handle : Byte)
    (value : Word32) (data : List Byte) :
    (s.respond kind sub handle value data).reaches
      ((s.finished [] rest).ended kind sub handle value data) := by
  have answers : s.answers = rest := by simpa [answersOf] using script.plays.2
  have same : s.respond kind sub handle value data =
      (s.finished [] rest).ended kind sub handle value data := by
    subst answers
    rfl
  exact same ▸ State.reaches_refl

/-- The command ends with an error that is no Timeout. -/
theorem State.Script.fails (script : s.Script c pos [] rest) (at' : pos.task? = some task)
    (other : task ≠ .dropClose) (e : Err) (notTimeout : isTimeout e = false) :
    (s.raiseErr e).reaches ((s.finished [] rest).failed (errCode e).1 (errCode e).2) := by
  have raised : s.raiseErr e = s.respond (errCode e).1 (errCode e).2 0 0 [] := by
    rw [s.raiseErr_eq_aborted script.busy at' e notTimeout, State.aborted, if_neg other]
    rfl
  rw [raised]
  exact script.responds ..

end

/-- `u` after an OK response that names no handle. -/
def answered (value : Word32) (data : List Byte) (u : State) : State := u.ended 0 0 0 value data

/-! ### WRITE_REG and READ_REG (R146, R151) -/

theorem State.ready.script {s : State} {i : Instr} {xs : List Action} {rest : List Answer}
    (ready : s.ready i) (plays : s.plays xs rest) : s.Script i .start xs rest := by
  obtain ⟨running, accepted, -, -, mpsHigh⟩ := ready
  exact ⟨running, mpsHigh, accepted, plays⟩

/-- Settles O23: one write and its response. -/
theorem writeRegRuns : Obligations.WriteRegRuns := by
  intro s addr data acks rest
  refine ⟨fun accepted down => ?_, fun ready plays => ?_⟩
  · rw [exec_of_start accepted, firstLine, down]
    exact congrArg Host.Outcome.next (s.raiseErr_eq_failed_of_start accepted _ rfl)
  · have script := ready.script plays
    obtain ⟨-, accepted, up, -⟩ := ready
    rw [exec_of_start accepted, firstLine, if_pos up]
    exact ⟨_, rfl, script.write (F := answered _ []) fun t next _ =>
      next.responds ..⟩

/-- Settles O24: one read and its response. -/
theorem readRegRuns : Obligations.ReadRegRuns := by
  intro s addr len acks rest
  refine ⟨fun accepted down => ?_, fun ready plays => ?_⟩
  · rw [exec_of_start accepted, firstLine, down]
    exact congrArg Host.Outcome.next (s.raiseErr_eq_failed_of_start accepted _ rfl)
  · have script := ready.script plays
    obtain ⟨-, accepted, up, -⟩ := ready
    rw [exec_of_start accepted, firstLine, if_pos up]
    refine ⟨_, rfl, script.read (F := answered len (payloads acks))
      fun t next _ => ?_⟩
    have value : BitVec.ofNat 32 len.toNat = len := by simp
    rw [State.continueTask, value]
    exact next.responds ..

/-- Settles O29: the five instructions write the value of their own code. -/
theorem operationExecuteWrites : Obligations.OperationExecuteWrites := by
  intro s c v task mode sel acks rest running _ mpsHigh position writes
  have written {i : Instr} {op : Word16} (runs : exec i s = atOperation op mode sel s) :
      writes i op := by
    intro plays
    obtain ⟨accepted, answers⟩ := State.plays_singleton.mp plays
    rw [runs, atOperation_of_operation position, State.writeOperation, toNat_packOperation]
    exact ⟨_, rfl, State.reaches_startWrite running mpsHigh position accepted answers⟩
  obtain ⟨execOpen, execClose, execRead, execWrite, execDelete⟩ := exec_operation mode sel s
  exact ⟨written execOpen, written execClose, written execRead, written execWrite,
    written execDelete⟩

end Sys2Proof.Machine
end

section
/-! PROOFS. The commands of the file store on a prompt channel: FILE_OPEN with its checks (O32,
O33), FILE_WRITE (O36, O37), FILE_READ (O38, O39) and HANDLE_DROP (O41). -/

namespace Sys2Proof.Machine

/-! ### The handle table beside the actions -/

section
variable {s : State} {c : Instr} {pos : Pos} {xs : List Action} {rest : List Answer}

theorem State.Script.withHandles (script : s.Script c pos xs rest) (hs : List Handle) :
    (s.withHandles hs).Script c pos xs rest where
  running := script.running
  mpsHigh := script.mpsHigh
  busy := script.busy
  plays := ⟨(s.allAccepted_withHandles hs xs).trans script.plays.1, script.plays.2⟩

theorem State.finished_withHandles (hs : List Handle) :
    (s.withHandles hs).finished xs rest = (s.finished xs rest).withHandles hs := by
  rw [State.finished, State.didAll_withHandles]
  rfl

end

/-! ### FILE_OPEN's checks (R164) -/

theorem openModeOk_iff {mode : Byte} : openModeOk mode = true ↔ mode = 1 ∨ mode = 2 := by
  simp [openModeOk, modeRead, modeWrite]

section
variable {s : State} {sel mode : Byte}

theorem State.freeHandle?_eq_none_iff :
    s.freeHandle? = none ↔ ∀ e ∈ s.handles, e.valid = true := by
  simp [State.freeHandle?]

theorem State.checkOpen_of_unknown (up : s.linkUp = true) (unknown : sel ∉ s.cfg.knownSelectors) :
    s.checkOpen sel mode = some .unknownSelector := by
  simp [State.checkOpen, up, State.knowsSelector_iff, unknown]

theorem State.checkOpen_of_badMode (up : s.linkUp = true) (known : sel ∈ s.cfg.knownSelectors)
    (illegal : ¬ openModeOk mode = true) : s.checkOpen sel mode = some .badMode := by
  simp [State.checkOpen, up, State.knowsSelector_iff.mpr known, illegal]

theorem State.checkOpen_of_full (up : s.linkUp = true) (known : sel ∈ s.cfg.knownSelectors)
    (legal : openModeOk mode = true) (full : s.freeHandle? = none) :
    s.checkOpen sel mode = some .noFreeHandle := by
  simp [State.checkOpen, up, State.knowsSelector_iff.mpr known, legal, full]

theorem State.checkOpen_of_free (up : s.linkUp = true) (known : sel ∈ s.cfg.knownSelectors)
    (legal : openModeOk mode = true) {h : Nat} (free : s.freeHandle? = some h) :
    s.checkOpen sel mode = none := by
  simp [State.checkOpen, up, State.knowsSelector_iff.mpr known, legal, free]

end

/-- Settles O32: each clause decides FILE_OPEN's check, with its error. -/
theorem fileOpenChecks : Obligations.FileOpenChecks := by
  intro s sel mode accepted
  have refused {e : Err} (notTimeout : isTimeout e = false)
      (check : s.checkOpen sel mode = some e) :
      exec (.fileOpen sel mode) s = .next (s.failed (errCode e).1 (errCode e).2) := by
    rw [exec_fileOpen_of_start accepted, check, State.unlessErr_some accepted notTimeout]
  refine ⟨fun down => ?_, fun up unknown => ?_, fun up known notRead notWrite => ?_,
    fun up known legal full => ?_⟩
  · exact refused rfl (State.checkOpen_of_linkDown down)
  · exact refused rfl (State.checkOpen_of_unknown up unknown)
  · exact refused rfl (State.checkOpen_of_badMode up known
      fun legal => (openModeOk_iff.mp legal).elim notRead notWrite)
  · exact refused rfl (State.checkOpen_of_full up known (openModeOk_iff.mpr legal)
      (State.freeHandle?_eq_none_iff.mpr full))

/-! ### FILE_OPEN past its checks (R164) -/

/-- What FILE_OPEN ends with after a second snapshot of value `status`, where the table is `hs` and
`h` its lowest free entry: the entry is allocated, or the open is not confirmed. -/
def openResult (k : Config) (hs : List Handle) (sel mode : Byte) (h status : Nat) (u : State) :
    State :=
  if status.testBit k.stOpenBit then
    (u.withHandles (hs.set h
      { valid := true, stale := false, sel := sel, mode := mode.setWidth 2, refcnt := 1 })).ended
      0 0 (BitVec.ofNat 8 h) 0 []
  else (u.withHandles hs).failed 3 7

/-- The Close of the reported selector, if a first snapshot of value `status` says a file is
open. -/
def closeActions (k : Config) (status : Nat) (acks : List Ack) : List Action :=
  if status.testBit k.stOpenBit then
    [execAction k k.opClose 0 (BitVec.ofNat 32 (status / 2 ^ k.stSelLsb % 2 ^ k.stSelWidth)) acks]
  else []

section
variable {s : State} {c : Instr} {pos : Pos} {sel mode : Byte} {h : Nat} {k : Config}
  {xs : List Action} {rest : List Answer}

theorem openResult_withHandles (hs hs' : List Handle) (status : Nat) (u : State) :
    openResult k hs sel mode h status (u.withHandles hs') =
      openResult k hs sel mode h status u := rfl

/-- The second snapshot, and the end of the command. -/
theorem State.Script.opensSecond {bytes : List Byte}
    (script : s.Script c (.opDone bytes (.openSecondStatus sel mode)) [] rest) (cfg : s.cfg = k)
    (free : s.freeHandle? = some h) :
    (s.continueTask bytes (.openSecondStatus sel mode)).reaches
      (openResult k s.handles sel mode h (dec k.regOrder bytes) (s.finished [] rest)) := by
  subst cfg
  rw [State.continueTask, State.afterSecondStatus, openResult, fileStatus]
  by_cases confirmed : (dec s.cfg.regOrder bytes).testBit s.cfg.stOpenBit = true
  · simp only [confirmed, if_true, free]
    rw [← State.finished_withHandles]
    exact (script.withHandles _).responds ..
  · simp only [confirmed]
    exact script.fails rfl Task.noConfusion .openNotConfirmed rfl

/-- The Open and the second snapshot. -/
theorem State.Script.opens {a3 a4 : List Ack} (cfg : s.cfg = k)
    (script : s.Script c pos
      [execAction k k.opOpen (mode.setWidth 16) (sel.setWidth 32) a3, .read 0xD0000100 8 a4] rest)
    (free : s.freeHandle? = some h) :
    (s.startOperation k.opOpen (mode.setWidth 16) (sel.setWidth 32) (.openOpen sel mode)).reaches
      (openResult k s.handles sel mode h (dec k.regOrder (payloads a4)) (s.finished
        [execAction k k.opOpen (mode.setWidth 16) (sel.setWidth 32) a3, .read 0xD0000100 8 a4]
        rest)) := by
  subst cfg
  refine script.operation rfl (F := openResult s.cfg s.handles sel mode h _) (by simp)
    fun t next keeps => ?_
  refine next.read (F := openResult s.cfg s.handles sel mode h _) fun u last keeps' => ?_
  have same := keeps.trans keeps'
  rw [← same.handles]
  exact last.opensSecond same.cfg (by rw [State.freeHandle?, same.handles]; exact free)

/-- Past the first snapshot: `MARK_STALE(all)`, the Close if a file is open, the Open. -/
theorem State.Script.opensFirst {bytes : List Byte} {a2 a3 a4 : List Ack} (cfg : s.cfg = k)
    (script : s.Script c (.opDone bytes (.openFirstStatus sel mode))
      (closeActions k (dec k.regOrder bytes) a2 ++
        [execAction k k.opOpen (mode.setWidth 16) (sel.setWidth 32) a3, .read 0xD0000100 8 a4])
      rest)
    (free : s.markAllStale.freeHandle? = some h) :
    (s.continueTask bytes (.openFirstStatus sel mode)).reaches
      (openResult k s.markAllStale.handles sel mode h (dec k.regOrder (payloads a4)) (s.finished
        (closeActions k (dec k.regOrder bytes) a2 ++
          [execAction k k.opOpen (mode.setWidth 16) (sel.setWidth 32) a3, .read 0xD0000100 8 a4])
        rest)) := by
  subst cfg
  have marked := script.withHandles s.markAllStale.handles
  rw [State.continueTask, State.afterFirstStatus,
    ← openResult_withHandles _ s.markAllStale.handles, ← State.finished_withHandles]
  cases opened : (dec s.cfg.regOrder bytes).testBit s.cfg.stOpenBit with
  | false =>
    simp only [closeActions, fileStatus, opened, Bool.false_eq_true, if_false] at marked ⊢
    exact State.Script.opens (s := s.markAllStale) rfl marked free
  | true =>
    simp only [closeActions, fileStatus, opened, if_true] at marked ⊢
    refine State.Script.operation (s := s.markAllStale)
      (F := openResult s.cfg s.markAllStale.handles sel mode h _) rfl marked (by simp)
      fun t next keeps => ?_
    rw [State.continueTask, ← keeps.handles, keeps.cfg]
    exact State.Script.opens keeps.cfg next (by rw [State.freeHandle?, keeps.handles]; exact free)

theorem State.freeHandle?_markAllStale : s.markAllStale.freeHandle? = s.freeHandle? := by
  rw [State.freeHandle?, State.markAllStale_handles, markStale, List.findIdx?_map]
  refine congrArg (List.findIdx? · s.handles) (funext fun e => ?_)
  simp only [Function.comp_apply]
  split <;> rfl

end

theorem State.freeHandle?_eq_some {s : State} {h : Nat}
    (free : ∃ e, s.handles[h]? = some e ∧ e.valid = false)
    (lower : ∀ j, j < h → ∃ e, s.handles[j]? = some e ∧ e.valid = true) :
    s.freeHandle? = some h := by
  obtain ⟨e, found, invalid⟩ := free
  obtain ⟨inside, rfl⟩ := List.getElem?_eq_some_iff.mp found
  refine List.findIdx?_eq_some_iff_getElem.mpr ⟨inside, by simp [invalid], fun j less => ?_⟩
  obtain ⟨e', found', valid⟩ := lower j less
  obtain ⟨_, rfl⟩ := List.getElem?_eq_some_iff.mp found'
  simp [valid]

/-- Settles O33: past its checks the run is the first snapshot and
`State.Script.opensFirst`, whose result the second snapshot decides. -/
theorem fileOpenRuns : Obligations.FileOpenRuns := by
  intro s sel mode h a1 a2 a3 a4 rest ready known legal free lower status1 status2 close xs stale
    plays
  have script := ready.script plays
  obtain ⟨-, accepted, up, -⟩ := ready
  have lowest := State.freeHandle?_eq_some free lower
  have table : s.markAllStale.handles = stale := by
    simp only [State.markAllStale_handles, markStale, Bool.and_true, stale]
  have passed := State.checkOpen_of_free up known (openModeOk_iff.mpr legal) lowest
  have runs := State.Script.read (task := .openFirstStatus sel mode)
    (F := openResult s.cfg stale sel mode h status2) script fun t next keeps => by
      have same : t.markAllStale.handles = stale := by
        rw [← table, State.markAllStale_handles, keeps.handles, State.markAllStale_handles]
      rw [← same]
      refine State.Script.opensFirst keeps.cfg next ?_
      rw [State.freeHandle?_markAllStale, State.freeHandle?, keeps.handles]
      exact lowest
  rw [exec_fileOpen_of_start accepted, passed, State.unlessErr_none]
  refine ⟨_, rfl, fun confirmed => ?_, fun notConfirmed => ?_⟩
  · rw [openResult, if_pos confirmed] at runs
    exact runs
  · rw [openResult, if_neg (Bool.eq_false_iff.mp notConfirmed)] at runs
    exact runs

/-! ### FILE_WRITE (R167) -/

section
variable {s : State} {h : Byte} {e : Handle}

theorem exec_fileWrite_of_live {data : List Byte}
    (accepted : s.seq = .busy (.fileWrite h data) .start) (up : s.linkUp = true)
    (live : s.liveHandle h = some e) (fresh : e.stale = false) (mode : e.mode = 2) :
    exec (.fileWrite h data) s =
      .next (s.startRead (0xD0005300 + 4 * e.sel.setWidth 64) 4 (.writeSize h data)) := by
  have usable : s.checkHandle h (some modeWrite) = none :=
    State.checkHandle_of_usable up live fresh (.inr (congrArg some mode.symm))
  obtain ⟨-, found, -⟩ := State.liveHandle_eq_some_iff.mp live
  rw [exec_fileWrite_of_start accepted, usable, State.unlessErr_none, State.startSize_eq found]

theorem exec_fileRead_of_live {maxLen : Word32}
    (accepted : s.seq = .busy (.fileRead h maxLen) .start) (up : s.linkUp = true)
    (live : s.liveHandle h = some e) (fresh : e.stale = false) (mode : e.mode = 1) :
    exec (.fileRead h maxLen) s = .next
      (s.startRead (0xD0005300 + 4 * e.sel.setWidth 64) 4 (.readSize h maxLen.toNat)) := by
  have usable : s.checkHandle h (some modeRead) = none :=
    State.checkHandle_of_usable up live fresh (.inr (congrArg some mode.symm))
  obtain ⟨-, found, -⟩ := State.liveHandle_eq_some_iff.mp live
  rw [exec_fileRead_of_start accepted, usable, State.unlessErr_none, State.startSize_eq found]

end

/-- The chunks of FILE_WRITE, each with its length, its buffer, its execute and its event. -/
theorem State.Script.fileWriteLoop {c : Instr} {h sel : Byte} {data : List Byte} {k : Config}
    {rest : List Answer} {ks : List Chunk} {as : List (List Ack × List Ack × List Ack)}
    (count : as.length = ks.length) {s : State} {pos : Pos} (cfg : s.cfg = k)
    (selector : s.selOf h = sel)
    (script : s.Script c pos (fileWriteActions k sel data ks as) rest) :
    (s.fileWriteLoop h data ks).reaches
      ((s.finished (fileWriteActions k sel data ks as) rest).ended 0 0 0 (dataLen data) []) := by
  induction ks generalizing as s pos with
  | nil => exact script.responds ..
  | cons x ks ih =>
    obtain _ | ⟨⟨a1, a2, a3⟩, as⟩ := as
    · cases count
    subst cfg
    rw [State.fileWriteLoop]
    refine script.write (F := answered (dataLen data) []) fun t1 next1 keeps1 => ?_
    refine next1.write (F := answered (dataLen data) []) fun t2 next2 keeps2 => ?_
    have same2 := keeps1.trans keeps2
    rw [State.continueTask, same2.cfg, same2.selOf, selector]
    refine next2.operation (F := answered (dataLen data) []) same2.cfg (by simp)
      fun t3 next3 keeps3 => ?_
    refine next3.progress (F := answered (dataLen data) []) fun t4 next4 keeps4 => ?_
    have same4 := (same2.trans keeps3).trans keeps4
    exact ih (Nat.succ.inj count) same4.cfg ((same4.selOf h).trans selector) next4

/-- Settles O36: the two reads, then the loop over the chunks. -/
theorem fileWriteRuns : Obligations.FileWriteRuns := by
  intro s h data e a1 a2 a3 rest ready inRange found valid fresh mode absent fits pieces count xs
    plays
  have script := ready.script plays
  obtain ⟨-, accepted, up, -⟩ := ready
  rw [exec_fileWrite_of_live accepted up
    (State.liveHandle_eq_some_iff.mpr ⟨inRange, found, valid⟩) fresh mode]
  refine ⟨_, rfl, State.Script.read (F := answered (dataLen data) []) script
    fun t1 next1 keeps1 => ?_⟩
  rw [State.continueTask, State.afterWriteSize, keeps1.cfg, if_neg (not_not.mpr absent)]
  refine State.Script.read (F := answered (dataLen data) []) next1
    fun t2 next2 keeps2 => ?_
  have same := keeps1.trans keeps2
  rw [State.continueTask, State.afterWriteMaxSize, same.cfg, if_neg (Nat.not_lt_of_le fits),
    same.lf]
  exact State.Script.fileWriteLoop count same.cfg ((same.selOf h).trans (State.selOf_eq found))
    next2

/-- Settles O37: the value of the first, or of the second, read decides the error. -/
theorem fileWriteRefused : Obligations.FileWriteRefused := by
  intro s h data e a1 a2 rest ready inRange found valid fresh mode size readSize readMax
  have ⟨_, accepted, up, _⟩ := ready
  rw [exec_fileWrite_of_live accepted up
    (State.liveHandle_eq_some_iff.mpr ⟨inRange, found, valid⟩) fresh mode]
  refine ⟨_, rfl, fun existing plays => ?_, fun absent tooLarge plays => ?_⟩
  · refine (ready.script plays).read (F := fun u => u.failed 3 1) fun t next keeps => ?_
    rw [State.continueTask, State.afterWriteSize, keeps.cfg, if_pos existing]
    exact next.fails rfl Task.noConfusion .fileExists rfl
  · refine (ready.script plays).read (F := fun u => u.failed 3 2) fun t1 next1 keeps1 => ?_
    rw [State.continueTask, State.afterWriteSize, keeps1.cfg, if_neg (not_not.mpr absent)]
    refine next1.read (F := fun u => u.failed 3 2) fun t2 next2 keeps2 => ?_
    rw [State.continueTask, State.afterWriteMaxSize, (keeps1.trans keeps2).cfg, if_pos tooLarge]
    exact next2.fails rfl Task.noConfusion .tooLarge rfl

/-! ### FILE_READ (R168) -/

/-- The chunks of FILE_READ, each with its length, its execute and its buffer. -/
theorem State.Script.fileReadLoop {c : Instr} {h sel : Byte} {n : Nat} {k : Config}
    {rest : List Answer} {ks : List Chunk} {as : List (List Ack × List Ack × List Ack)}
    (count : as.length = ks.length) {s : State} {pos : Pos} {out : List Byte} (cfg : s.cfg = k)
    (selector : s.selOf h = sel)
    (script : s.Script c pos (fileReadActions k sel ks as) rest) :
    (s.fileReadLoop h n out ks).reaches
      ((s.finished (fileReadActions k sel ks as) rest).ended 0 0 0 (BitVec.ofNat 32 n)
        (out ++ as.flatMap fun x => payloads x.2.2)) := by
  induction ks generalizing as s pos out with
  | nil =>
    obtain rfl := List.length_eq_zero_iff.mp count
    rw [List.flatMap_nil, List.append_nil]
    exact script.responds ..
  | cons x ks ih =>
    obtain _ | ⟨⟨a1, a2, a3⟩, as⟩ := as
    · cases count
    subst cfg
    rw [State.fileReadLoop, List.flatMap_cons, ← List.append_assoc]
    let F : State → State := answered (BitVec.ofNat 32 n)
      (out ++ payloads a3 ++ as.flatMap fun x => payloads x.2.2)
    refine script.write (F := F) fun t1 next1 keeps1 => ?_
    rw [State.continueTask, keeps1.cfg, keeps1.selOf, selector]
    refine next1.operation (F := F) keeps1.cfg (by simp) fun t2 next2 keeps2 => ?_
    refine next2.read (F := F) fun t3 next3 keeps3 => ?_
    have same := (keeps1.trans keeps2).trans keeps3
    exact ih (Nat.succ.inj count) same.cfg ((same.selOf h).trans selector) next3

/-- Settles O38: the size read, then the loop over the chunks. -/
theorem fileReadRuns : Obligations.FileReadRuns := by
  intro s h maxLen e a1 a2 rest ready inRange found valid fresh mode n some fits pieces count xs
    plays
  have script := ready.script plays
  obtain ⟨-, accepted, up, -⟩ := ready
  rw [exec_fileRead_of_live accepted up
    (State.liveHandle_eq_some_iff.mpr ⟨inRange, found, valid⟩) fresh mode]
  refine ⟨_, rfl, State.Script.read (F := answered (BitVec.ofNat 32 n)
    (a2.flatMap fun x => payloads x.2.2)) script fun t next keeps => ?_⟩
  rw [State.continueTask, State.afterReadSize, keeps.cfg, if_neg some,
    if_neg (Nat.not_lt_of_le fits), keeps.lf]
  exact State.Script.fileReadLoop count keeps.cfg ((keeps.selOf h).trans (State.selOf_eq found))
    next

/-- Settles O39: the size read decides the error. -/
theorem fileReadRefused : Obligations.FileReadRefused := by
  intro s h maxLen e a1 rest ready inRange found valid fresh mode n xs plays
  have script := ready.script plays
  obtain ⟨-, accepted, up, -⟩ := ready
  rw [exec_fileRead_of_live accepted up
    (State.liveHandle_eq_some_iff.mpr ⟨inRange, found, valid⟩) fresh mode]
  refine ⟨_, rfl, fun empty => ?_, fun tooSmall => ?_⟩
  · refine script.read (F := fun u => u.failed 3 6) fun t next keeps => ?_
    rw [State.continueTask, State.afterReadSize, keeps.cfg, if_pos empty]
    exact next.fails rfl Task.noConfusion .fileEmpty rfl
  · have some : n ≠ 0 := Nat.ne_of_gt (Nat.zero_lt_of_lt tooSmall)
    refine script.read (F := fun u => u.failed 3 3) fun t next keeps => ?_
    rw [State.continueTask, State.afterReadSize, keeps.cfg, if_neg some, if_pos tooSmall]
    exact next.fails rfl Task.noConfusion .bufferTooSmall rfl

/-! ### HANDLE_DROP (R170) -/

section
variable {s : State} {h : Byte} {e : Handle}

theorem State.handleDrop_of_copies (live : s.liveHandle h = some e) (others : e.refcnt - 1 ≠ 0) :
    s.handleDrop h =
      ({ s with handles := s.handles.set h.toNat { e with refcnt := e.refcnt - 1 } } :
        State).ended 0 0 0 0 [] := by
  simp only [State.handleDrop, live, if_neg others]
  rfl

/-- The last drop frees the entry. -/
theorem State.handleDrop_of_last (live : s.liveHandle h = some e) (last : e.refcnt = 1) :
    s.handleDrop h =
      (s.setHandle h.toNat { e with refcnt := 0, valid := false }).lastDrop e.sel := by
  simp only [State.handleDrop, live, last]
  rfl

theorem State.handleDrop_of_linkDown (live : s.liveHandle h = some e) (last : e.refcnt = 1)
    (down : s.linkUp = false) :
    s.handleDrop h =
      (s.withHandles (s.handles.set h.toNat { e with refcnt := 0, valid := false })).ended
        0 0 0 0 [] := by
  rw [State.handleDrop_of_last live last, State.lastDrop, State.setHandle_linkUp, down]
  rfl

theorem State.handleDrop_of_linkUp (live : s.liveHandle h = some e) (last : e.refcnt = 1)
    (up : s.linkUp = true) :
    s.handleDrop h =
      (s.withHandles (markStale (fun x => x == e.sel)
        (s.handles.set h.toNat { e with refcnt := 0, valid := false }))).startOperation
        s.cfg.opClose 0 (e.sel.setWidth 32) .dropClose := by
  rw [State.handleDrop_of_last live last, State.lastDrop, State.setHandle_linkUp, if_pos up]
  rfl

end

/-- Settles O41: which entry is live, its count and the link decide the branch; the Close touches
no handle. -/
theorem handleDropRuns : Obligations.HandleDropRuns := by
  intro s h accepted entry freed
  have alive {e : Handle} (live : entry e) : s.liveHandle h = some e :=
    State.liveHandle_eq_some_iff.mpr live
  refine ⟨fun dead => exec_handleDrop_of_not_live accepted (State.liveHandle_eq_none dead), ?_⟩
  rw [exec_handleDrop_of_start accepted]
  refine ⟨fun e live counted others => ?_, fun e live last down => ?_,
    fun e acks rest live last ready => ?_⟩
  · have copies : e.refcnt - 1 ≠ 0 := fun zero => others <| calc
      e.refcnt = e.refcnt - 1 + 1 := (BitVec.sub_add_cancel _ _).symm
      _ = 1 := by rw [zero]; rfl
    rw [State.handleDrop_of_copies (alive live) copies]
  · rw [State.handleDrop_of_linkDown (alive live) last down]
    rfl
  · intro xs plays
    let stale : List Handle := markStale (fun x => x == e.sel) (freed e)
    have script := (ready.script plays).withHandles stale
    obtain ⟨-, -, up, -⟩ := ready
    have closes := State.Script.operation (s := s.withHandles stale) (k := s.cfg)
      (task := .dropClose) (F := answered 0 []) rfl script (by simp)
      fun t next _ => next.responds ..
    rw [State.finished_withHandles] at closes
    exact ⟨_, congrArg Host.Outcome.next (State.handleDrop_of_linkUp (alive live) last up), closes⟩

end Sys2Proof.Machine
end
